-- ==== Sys2Proof/Word.lean ====
section
/-! DEFINITION. The word types of the hub: bytes, 16-bit words, station addresses, port numbers, codes. -/

namespace Sys2Proof

/-- One byte of the host link or of a drop-line character. -/
abbrev Byte := BitVec 8

/-- A two-byte field, a tag, a check or a counter. -/
abbrev Word16 := BitVec 16

/-- A station address, the six low bits of a head (R6). -/
abbrev Addr := BitVec 6

/-- A port number, 0 to 7 (00_scope, Ports and stations). -/
abbrev PortId := Fin 8

/-- A six-bit trim code, 0 to 63 (R110). -/
abbrev TrimCode := BitVec 6

/-- A receive threshold code, 0 to 31 (R138). -/
abbrev ThCode := BitVec 5

/-- A termination value code, 1 to 7; 0 stands for none (R98). -/
abbrev TermCode := BitVec 3

end Sys2Proof
end

