-- ==== Sys2Proof/Syntax.lean ====
section
/-! DEFINITION. The hub's commands: one constructor per row of spec/opcode_table.json, with what the outside
supplies at that step as operands. The operands of a host command are the frame at the head of the inbound buffer
(R157), whose type `HostFrame` is declared here. -/

namespace Sys2Proof

/-- A good inbound frame as the command unit takes it (R154, R156). -/
structure HostFrame where
  kind : Byte
  seq  : Byte
  body : List Byte
  deriving DecidableEq, Repr

/-- The record the receiver hands to the frame assembler (R4). -/
structure RxChar where
  data    : Byte
  mark    : Bool
  noisy   : Bool
  framing : Bool
  deriving DecidableEq, Repr

/-- An answer of the analog comparator: the first two in a FULL measurement (R119), the rest in a QUICK one (R120). -/
inductive Comparison where
  | below
  | notBelow
  | down
  | up
  | hold
  deriving DecidableEq, Repr

/-- The 57 steps of the part. The first 22 are takings of a host frame by the command unit; their operands stand in
the frame at the head of the inbound buffer (R157, R164). -/
inductive Instr where
  -- host commands (R164, R165)
  | identify
  | hubStatus
  | hubReset
  | setDrift
  | portEnable
  | portDisable
  | portReset
  | portStatus
  | setTermination
  | dozeEnter
  | dozeLeave
  | calibrate
  | addStation
  | removeStation
  | releaseStation
  | setThreshold
  | stationStatus
  | sweep
  | submit
  | cancel
  | queueList
  | unknownCommand
  -- resets and start-up (R161, R162)
  | powerOn
  | resetNAssert
  /-- `linksel`: the LINKSEL pins as read at the beginning of start-up (R152). -/
  | resetNRelease (linksel : BitVec 2)
  /-- `linksel`: as above, for the start-up that follows the reset (R162 step 4). -/
  | hubResetCarriedOut (linksel : BitVec 2)
  | startUpEnd
  -- host link (R153 to R158)
  | hostByteReceived (b : Byte)
  | charFraming
  | linkBreak
  | hostGapTimeout
  | txFrameEnd
  -- drop line
  | characterReceived (p : PortId) (c : RxChar)
  | characterGapExpiry (p : PortId)
  | lineBecomesIdle (p : PortId)
  | frameSent (p : PortId)
  | collision (p : PortId)
  | startInTurnaround (p : PortId)
  | turnaroundExpiry (p : PortId)
  | replyTimeout (p : PortId)
  | stuckLineExpiry (p : PortId)
  -- calibration
  | quickCalExpiry (p : PortId)
  | newInterval (p : PortId)
  | calibrationRequest (p : PortId)
  | upgrade (p : PortId)
  | grant (p : PortId)
  | windowOpen (p : PortId)
  | comparisonDecided (answer : Comparison)
  | spoilReport (p : PortId)
  | windowEnd (p : PortId)
  | acknowledgement (p : PortId)
  | closure (p : PortId)
  | withdrawal (p : PortId)
  -- samples
  | activeSample (p : PortId)
  /-- `atLimit`: the reply timer, if it runs, had just reached its timeout when this start bit was taken first (R14). -/
  | startBitAccepted (p : PortId) (atLimit : Bool)
  | restLevelSample (p : PortId)
  | rxdReturnsHigh
  deriving DecidableEq, Repr

end Sys2Proof
end

