-- ==== Sys2Proof/Config.lean ====
section
/-! DEFINITION. What the LH8 fixes: capacities, limits and constants that no command changes. The spec leaves no
result of a command open, so there is no free value here (NOTES.md, Scope). -/

namespace Sys2Proof.Config

/-- Frames the inbound buffer holds (R156). -/
def inboundPlaces : Nat := 4

/-- Responses the response queue holds (R157). -/
def responsePlaces : Nat := 4

/-- Notices the notice queue holds (R159). -/
def noticePlaces : Nat := 32

/-- Transactions a port's queue holds (R61). -/
def queuePlaces : Nat := 16

/-- Entries a station table holds (R39). -/
def tablePlaces : Nat := 16

/-- Rest-level bit times that make a line idle (R11). -/
def idleBits : Nat := 14

/-- The largest COUNT of a drop-line frame (R5). -/
def maxCount : Nat := 48

/-- The collision run that faults a port (R37). -/
def collisionLimit : Nat := 8

/-- Codes tried by a sweep (R140). -/
def sweepCodes : Nat := 32

/-- The shortest run of passing codes that yields a threshold (R148). -/
def minRun : Nat := 3

/-- Restarts a sweep survives (R147). -/
def maxRestarts : Nat := 2

/-- Windows a calibration request may open (R122). -/
def maxCalAttempts : Nat := 3

/-- Largest D_T, milli-degrees per second (R130). -/
def maxDT : Nat := 20000

/-- Largest D_V, microvolts per second (R130). -/
def maxDV : Nat := 50000

/-- S_T, ppm per degree (R131). -/
def sT : Nat := 1800

/-- S_V, ppm per millivolt (R131). -/
def sV : Nat := 120

/-- Q = 4000 ppm with its two factors of 1000 multiplied out (R131 step 2). -/
def driftBudget : Nat := 4000000000

/-- Shortest interval, ms (R131 step 3). -/
def minInterval : Nat := 100

/-- Longest interval, ms, and the interval at rest (R131). -/
def maxInterval : Nat := 60000

/-- Bit times of a low RXD that make a break: two byte times (R153). -/
def breakBits : Nat := 20

/-- The SYNC byte of a host-link frame (R154). -/
def sync : Byte := 0xA5

/-- IDENTIFY's data (R166): vendor, part code low and high, revision, ports, queue depth, stations per table. -/
def identity : List Byte := [0xB4, 0x48, 0x01, 3, 8, 16, 16]

/-- The threshold code of the port default, LOW 20 (R138). -/
def defaultThCode : ThCode := 20

/-- Every trim code after power-on (R110). -/
def resetTrimCode : TrimCode := 32

end Sys2Proof.Config
end

