-- ==== Sys2Proof/Machine/State.lean ====
section
/-! DEFINITION. The state of the hub as plain data, and the state right after power-on. INVENTORY.md lists every
field with its rule and its reset value. -/

namespace Sys2Proof.Machine

/-! ### Names of states, kinds, outcomes and causes (R163) -/

/-- The two line levels (section 1.2). -/
inductive Level where
  | active
  | rest
  deriving DecidableEq, Repr

/-- The kinds of calibration, and of trimming (R112, R19). -/
inductive CalKind where
  | full
  | quick
  deriving DecidableEq, Repr

/-- Why a port is FAULTED (R19). -/
inductive FaultCause where
  | trim
  | stuck
  | contention
  deriving DecidableEq, Repr

/-- The port state record of R19: the trimming kind and the fault cause stand exactly where the rule has them
present. -/
inductive PortState where
  | off
  | trimming (kind : CalKind)
  | ready
  | degraded
  | doze
  | faulted (cause : FaultCause)
  deriving DecidableEq, Repr

/-- The transition causes of R20. -/
inductive TransCause where
  | enabled
  | disabled
  | reset
  | dozeEntered
  | dozeLeft
  | upgraded
  | trimmed
  | rail
  | calFailed
  | recovered
  | stuck
  | contention
  deriving DecidableEq, Repr

/-- Transaction kinds (R56). -/
inductive TxnKind where
  | request
  | post
  | broadcast
  deriving DecidableEq, Repr

/-- Transaction classes (R56). -/
inductive TxnClass where
  | normal
  | expedited
  deriving DecidableEq, Repr

/-- Transaction outcomes (R76). -/
inductive TxnOutcome where
  | done
  | noReply
  | badReply
  | collided
  | cancelled
  | portDisabled
  | portReset
  | portFaulted
  | stationQuarantined
  deriving DecidableEq, Repr

/-- The causes an attempt fails with (R63). -/
inductive FailCause where
  | noReply
  | badReply
  | collided
  deriving DecidableEq, Repr

/-- The phases of in-flight work (R56, section 4.6). -/
inductive Phase where
  | waitingIdle
  | sending
  | turnaround
  | awaiting
  | receiving
  | recovering
  deriving DecidableEq, Repr

/-- Request origins (R112). -/
inductive CalOrigin where
  | auto
  | host
  deriving DecidableEq, Repr

/-- The outcome of a window (R123): SPOILED is not final. -/
inductive WindowOutcome where
  | done
  | rail
  | spoiled
  | failed
  deriving DecidableEq, Repr

/-- The final outcomes a CAL_DONE reports (R128). -/
inductive CalOutcome where
  | done
  | rail
  | failed
  | abandoned
  deriving DecidableEq, Repr

/-- A port's claim on the shared reference (R32). -/
inductive Claim where
  | none
  | queued
  | granted
  | window
  deriving DecidableEq, Repr

/-- The quick-cal timer and, while it runs, its remaining milliseconds (R133). RUNNING with 0 left stands only between the
moment the time has run out and the taking of the expiry (log 8, DESIGN CHOICE). -/
inductive QuickTimer where
  | stopped
  | running (ms : Nat)
  | expired
  deriving DecidableEq, Repr

/-- Termination roles (R101). -/
inductive TermRole where
  | highZ
  | park
  | nominal
  | listen
  deriving DecidableEq, Repr

/-- Threshold ranges (R138). -/
inductive ThRange where
  | low
  | high
  deriving DecidableEq, Repr

/-- Threshold origins (R40). -/
inductive ThOrigin where
  | default
  | manual
  | swept
  deriving DecidableEq, Repr

/-- Station states (R40). -/
inductive StationState where
  | active
  | suspect
  | silent
  | quarantined
  deriving DecidableEq, Repr

/-- Causes of a STATION_STATE notice (R46). -/
inductive StationCause where
  | failures
  | reply
  | strike
  | released
  deriving DecidableEq, Repr

/-- Causes of an abandoned sweep (R149). -/
inductive SweepCause where
  | portDisabled
  | portReset
  | portFaulted
  | stationQuarantined
  | trimChanged
  deriving DecidableEq, Repr

/-- Causes of a LINK_ERROR (R155, R156). -/
inductive LinkCause where
  | length
  | gap
  | charFraming
  | brk
  | check
  | overflow
  deriving DecidableEq, Repr

/-- Start-up causes (R161). -/
inductive StartCause where
  | power
  | command
  deriving DecidableEq, Repr

/-- Result codes (R166). -/
inductive Result where
  | ok
  | merged
  | upgraded
  | unknownCommand
  | badLength
  | badValue
  | badPort
  | portState
  | portBusy
  | portDozing
  | queueFull
  | duplicateTag
  | unknownStation
  | stationExists
  | tableFull
  | stationBusy
  | stationQuarantined
  | calBusy
  | sweepBusy
  | notFound
  | inFlight
  deriving DecidableEq, Repr

/-! ### The line interface -/

/-- The kinds of a drop-line frame (R6). -/
inductive FrameKind where
  | request
  | post
  | probe
  | reply
  deriving DecidableEq, Repr

/-- The receiver (R3, R4, R85): off, hunting, inside a character, or waiting for a rest-level sample. -/
inductive Receiver where
  | off
  | hunting
  | inCharacter
  | waitRest
  deriving DecidableEq, Repr

/-- What the frame assembler waits for while it assembles (section 1.4). -/
inductive Awaited where
  | count
  | payload
  | checkLow
  | checkHigh
  deriving DecidableEq, Repr

/-- The assembler's frame record (section 1.4). -/
structure FrameRec where
  addr     : Addr
  kind     : FrameKind
  count    : Option Byte
  payload  : List Byte
  checkLo  : Option Byte
  checkHi  : Option Byte
  framing  : Bool
  noisy    : Nat
  deriving DecidableEq, Repr

/-- The assembler: HUNT holds no frame record (R17). -/
inductive Assembler where
  | hunt
  | assembling (waiting : Awaited) (record : FrameRec)
  deriving DecidableEq, Repr

/-- How a received frame ends (R9, R10). -/
inductive Ending where
  | complete
  | truncated
  | interrupted
  | overlength
  deriving DecidableEq, Repr

/-- The reply timer (R14). `limit` is the timeout it was started with, in character times; `atLimit` says that its
held value has already reached the timeout. -/
inductive ReplyTimer where
  | stopped
  | running (limit : Nat)
  | held (limit : Nat) (atLimit : Bool)
  deriving DecidableEq, Repr

/-- The stuck-line timer's condition (R95). -/
inductive StuckTimer where
  | stopped
  | zero
  | counting
  deriving DecidableEq, Repr

/-- The driver: released, driving a frame, disconnected for a calibration window (R118), disabled in FAULTED (R28). -/
inductive Driver where
  | released
  | driving
  | disconnected
  | disabled
  deriving DecidableEq, Repr

/-- One character of a frame on the wire: its data byte and its mark bit (R2). -/
structure LineChar where
  data : Byte
  mark : Bool
  deriving DecidableEq, Repr

/-- A receive threshold (R138). -/
structure Threshold where
  range : ThRange
  code  : ThCode
  deriving DecidableEq, Repr

/-- The trim record (R110). -/
structure Trim where
  pu : TrimCode
  pd : TrimCode
  tc : TrimCode
  deriving DecidableEq, Repr

/-- One line interface. -/
structure LineIf where
  receiver   : Receiver
  assembler  : Assembler
  restCount  : Nat
  lastSample : Option Level
  gapRunning : Bool
  turnaround : Option Nat
  reply      : ReplyTimer
  stuck      : StuckTimer
  driver     : Driver
  sending    : List LineChar
  threshold  : Threshold
  trim       : Trim
  spoilWatch : Option Byte
  deriving DecidableEq, Repr

/-! ### The port engine and its station table -/

/-- The settings record (R18), each field as PORT_STATUS reports it. -/
structure Settings where
  rate     : Byte
  gap      : Byte
  timeout  : Byte
  attempts : Byte
  deriving DecidableEq, Repr

/-- The six port counters (R36). -/
structure PortCounters where
  framesSent     : Word16
  attemptsFailed : Word16
  collisions     : Word16
  strays         : Word16
  quickDone      : Word16
  quickFailed    : Word16
  deriving DecidableEq, Repr

/-- The fixed part of a transaction record (R56). The port is the one whose engine holds it. -/
structure Txn where
  tag        : Word16
  kind       : TxnKind
  cls        : TxnClass
  station    : Option Addr
  attempts   : Nat
  replyLimit : Option Nat
  payload    : List Byte
  deriving DecidableEq, Repr

/-- A transaction with its working part (R56); its phase stands beside it in `InFlight`. -/
structure TxnRun where
  txn         : Txn
  limit       : Nat
  used        : Nat
  lastFailure : Option FailCause
  reply       : Option (List Byte)
  deriving DecidableEq, Repr

/-- A probe (R142). -/
structure ProbeRun where
  station : Addr
  range   : ThRange
  code    : ThCode
  deriving DecidableEq, Repr

/-- What a port may have in flight. -/
inductive Work where
  | txn (run : TxnRun)
  | probe (run : ProbeRun)
  deriving DecidableEq, Repr

/-- In-flight work and its phase. -/
structure InFlight where
  phase : Phase
  work  : Work
  deriving DecidableEq, Repr

/-- An entry of a pass map (R140). -/
inductive PassEntry where
  | untried
  | pass
  | fail
  deriving DecidableEq, Repr

/-- The last-work flag (R140). -/
inductive LastWork where
  | probe
  | transaction
  deriving DecidableEq, Repr

/-- The sweep record (R140). -/
structure Sweep where
  station  : Addr
  range    : ThRange
  next     : Nat
  map      : List PassEntry
  restarts : Nat
  last     : LastWork
  deriving DecidableEq, Repr

/-- The termination profile (R99). -/
structure Profile where
  park    : Option TermCode
  nominal : Option TermCode
  listen  : Option TermCode
  hold    : Bool
  deriving DecidableEq, Repr

/-- The selected termination record (R101). -/
structure Selection where
  role  : TermRole
  value : TermCode
  deriving DecidableEq, Repr

/-- A sweep's window (R40, R148). -/
structure SweepWindow where
  start : Nat
  width : Nat
  deriving DecidableEq, Repr

/-- A station entry (R40). -/
structure Station where
  addr       : Addr
  state      : StationState
  failureRun : Byte
  strikes    : Nat
  threshold  : Threshold
  origin     : ThOrigin
  lastWindow : Option SweepWindow
  completed  : Word16
  failed     : Word16
  late       : Word16
  noisy      : Word16
  deriving DecidableEq, Repr

/-! ### Calibration requests and messages -/

/-- A calibration request (R112). -/
structure Request where
  port    : PortId
  kind    : CalKind
  origin  : CalOrigin
  attempt : Nat
  number  : Byte
  deriving DecidableEq, Repr

/-- What a port engine sends the trim unit (R112, R118, R123, R124). -/
inductive PortMsg where
  | request (r : Request)
  | windowOpen (number : Byte)
  | acknowledge (number : Byte)
  | withdraw (number : Byte)
  deriving DecidableEq, Repr

/-- What the trim unit sends a port engine (R115, R117, R123). -/
inductive TrimMsg where
  | upgraded (number : Byte)
  | granted (number : Byte)
  | windowEnd (number : Byte) (outcome : WindowOutcome) (kind : CalKind) (origin : CalOrigin) (changed : Bool)
  | closure (number : Byte) (requeued : Bool)
  deriving DecidableEq, Repr

/-- The three trimmed legs, in measuring order (section 7.4). -/
inductive Leg where
  | pu
  | pd
  | tc
  deriving DecidableEq, Repr

/-- The calibration engine inside a window (R119, R120). -/
inductive Engine where
  | full (leg : Leg) (bit : TrimCode) (result : TrimCode)
  | quick (leg : Leg) (rail : Bool)
  deriving DecidableEq, Repr

/-- The holder's phase (R117), with the window-start codes (R111) while the window is not closed. -/
inductive HolderPhase where
  | granted
  | measuring (start : Trim) (engine : Engine)
  | ending (start : Trim) (outcome : WindowOutcome) (changed : Bool)
  deriving DecidableEq, Repr

/-- The request that holds the reference, and its phase (R117). -/
structure Holder where
  request : Request
  phase   : HolderPhase
  deriving DecidableEq, Repr

/-- The trim unit (chapters 7 and 8). -/
structure TrimUnit where
  queue    : List Request
  holder   : Option Holder
  dT       : Nat
  dV       : Nat
  interval : Nat
  deriving DecidableEq, Repr

/-- One port: its engine, its station table, its line interface, and the messages on their way between it and the
trim unit, oldest first. -/
structure Port where
  settings     : Settings
  state        : PortState
  counters     : PortCounters
  collisionRun : Nat
  queue        : List Txn
  inFlight     : Option InFlight
  sweep        : Option Sweep
  claim        : Claim
  claimNumber  : Byte
  claimKind    : Option CalKind
  timer        : QuickTimer
  interval     : Nat
  profile      : Profile
  selected     : Selection
  lateReply    : Option Addr
  stations     : List Station
  line         : LineIf
  toTrim       : List PortMsg
  fromTrim     : List TrimMsg
  newIntervals : List Nat
  spoils       : List Byte
  deriving DecidableEq, Repr

/-! ### The host link -/

/-- Where the hub stands in its reset sequence (R161). -/
inductive Power where
  | heldReset
  | startUp (cause : StartCause)
  | running
  deriving DecidableEq, Repr

/-- The host-link receiver (R153, R155, R161). -/
inductive HostReceiver where
  | ignoring
  | waitHigh
  | hunting
  deriving DecidableEq, Repr

/-- The inbound framer's seven states, each with what it has taken of the frame (R155). -/
inductive Framer where
  | hunt
  | length
  | kind (len : Byte)
  | sequence (len kind : Byte)
  | body (len kind seq : Byte) (taken : List Byte)
  | checkLow (len kind seq : Byte) (taken : List Byte)
  | checkHigh (len kind seq : Byte) (taken : List Byte) (low : Byte)
  deriving DecidableEq, Repr

/-- A response: the KIND and SEQ it is sent with, its result code, its data (R154, R166). -/
structure Response where
  kind   : Byte
  seq    : Byte
  result : Result
  data   : List Byte
  deriving DecidableEq, Repr

/-- How a sweep ended, for SWEEP_DONE (R150). -/
inductive SweepEnd where
  | done (code start width : Nat)
  | noWindow (longest : Option SweepWindow)
  | abandoned (cause : SweepCause)
  deriving DecidableEq, Repr

/-- The eight notices (R170). -/
inductive Notice where
  | hubReady (cause : StartCause)
  | txnDone (tag : Word16) (port : PortId) (outcome : TxnOutcome) (used : Nat) (reply : Option (List Byte))
  | calDone (request : Request) (outcome : CalOutcome) (codes : Trim)
  | sweepDone (port : PortId) (station : Addr) (range : ThRange) (how : SweepEnd) (map : List PassEntry)
  | portState (port : PortId) (state : PortState) (cause : TransCause)
  | stationState (port : PortId) (station : Addr) (state : StationState) (cause : StationCause)
  | linkError (cause : LinkCause)
  | noticesLost (count : Word16)
  deriving DecidableEq, Repr

/-- A notice in the queue with the number it was given (R159). -/
structure Numbered where
  number : Byte
  notice : Notice
  deriving DecidableEq, Repr

/-- The transmitter (R158). -/
inductive Tx where
  | idle
  | response (r : Response)
  | notice (n : Numbered)
  deriving DecidableEq, Repr

/-- The host link interface (chapter 10). -/
structure Link where
  rate       : BitVec 2
  receiver   : HostReceiver
  framer     : Framer
  gapRunning : Bool
  inbound    : List HostFrame
  responses  : List Response
  notices    : List Numbered
  nextNotice : Byte
  lost       : Word16
  tx         : Tx
  deriving DecidableEq, Repr

/-- An entry of the live tag set (R57). -/
structure LiveTag where
  tag  : Word16
  port : PortId
  deriving DecidableEq, Repr

/-- The command unit: the live tag set (R57), and whether HUB_RESET has been taken and its response drains (R162). -/
structure CommandUnit where
  live     : List LiveTag
  draining : Bool
  deriving DecidableEq, Repr

/-- The whole hub, and the queue of commands waiting for it. -/
structure State where
  power   : Power
  link    : Link
  cmd     : CommandUnit
  trim    : TrimUnit
  ports   : Vector Port 8
  pending : List Instr
  deriving DecidableEq, Repr

/-- No command of the hub stops it: a port fault is a port state and a link error a notice. Nobody raises the one
constructor, which is here so that the type has a name to print; it is safe, since it is never answered. -/
inductive Fault where
  | never
  deriving DecidableEq, Repr

/-- Why a command is refused. -/
inductive Refusal where
  /-- Raised by `exec` for a command whose meaning is not written yet; none is left. Safe: it stops the run. -/
  | notModelled (mnemonic : String)
  deriving DecidableEq, Repr

/-! ### Reset values -/

/-- The port default threshold, LOW 20 (R138). -/
def Threshold.portDefault : Threshold := ⟨.low, Config.defaultThCode⟩

/-- A line interface at power-on (R17, R97, R110, R139). -/
def LineIf.reset : LineIf :=
  { receiver := .off, assembler := .hunt, restCount := 0, lastSample := none, gapRunning := false,
    turnaround := none, reply := .stopped, stuck := .stopped, driver := .released, sending := [],
    threshold := .portDefault, trim := ⟨Config.resetTrimCode, Config.resetTrimCode, Config.resetTrimCode⟩,
    spoilWatch := none }

/-- Port counters at zero (R36). -/
def PortCounters.zero : PortCounters := ⟨0, 0, 0, 0, 0, 0⟩

/-- A port at power-on (R18, R19, R38, R55, R82, R99, R109, R125, R133, R151). -/
def Port.reset : Port :=
  { settings := ⟨0, 2, 8, 1⟩, state := .off, counters := .zero, collisionRun := 0, queue := [], inFlight := none,
    sweep := none, claim := .none, claimNumber := 0, claimKind := none, timer := .stopped,
    interval := Config.maxInterval, profile := ⟨none, none, none, false⟩, selected := ⟨.highZ, 0⟩,
    lateReply := none, stations := [], line := .reset, toTrim := [], fromTrim := [], newIntervals := [],
    spoils := [] }

/-- The trim unit at power-on (R125, R130, R131). -/
def TrimUnit.reset : TrimUnit := ⟨[], none, 0, 0, Config.maxInterval⟩

/-- The host link at power-on (R155 to R161). The rate stands at 0 until a start-up reads the pins (log 12,
DESIGN CHOICE). -/
def Link.reset : Link :=
  { rate := 0, receiver := .ignoring, framer := .hunt, gapRunning := false, inbound := [], responses := [],
    notices := [], nextNotice := 0, lost := 0, tx := .idle }

/-- The hub right after power-on, with RESET_N still low (R161, log 1). -/
def State.reset : State :=
  { power := .heldReset, link := .reset, cmd := ⟨[], false⟩, trim := .reset,
    ports := Vector.replicate 8 Port.reset, pending := [] }

end Sys2Proof.Machine
end

