-- ==== Sys2Proof/Machine/Signal.lean ====
section
/-! DEFINITION. Signalling: the check, the frames the hub sends, the bits of a character, sampling and thresholds
(chapter 1, R138). -/

namespace Sys2Proof.Machine

/-! ### The check (R7, R154) -/

/-- One data bit through the check register (R7). -/
def crcBit (reg : Word16) (bit : Bool) : Word16 :=
  let shifted := reg >>> 1
  if reg.getLsbD 0 != bit then shifted ^^^ 0x8408 else shifted

/-- One byte, least significant bit first (R7). -/
def crcByte (reg : Word16) (b : Byte) : Word16 :=
  [0, 1, 2, 3, 4, 5, 6, 7].foldl (fun r i => crcBit r (b.getLsbD i)) reg

/-- The 16-bit check over bytes in frame order, from FFFFh with no final inversion (R7). -/
def checkOf (bytes : List Byte) : Word16 := bytes.foldl crcByte 0xFFFF

/-- The low byte of a two-byte value. -/
def lowByte (w : Word16) : Byte := w.setWidth 8

/-- The high byte of a two-byte value. -/
def highByte (w : Word16) : Byte := (w >>> 8).setWidth 8

/-- A two-byte value from its low and high bytes (R163). -/
def word (lo hi : Byte) : Word16 := hi ++ lo

/-- The bytes of a host-link frame: SYNC, LEN, KIND, SEQ, BODY, CHECK low, CHECK high (R154). -/
def hostFrameBytes (kind seq : Byte) (body : List Byte) : List Byte :=
  let covered := BitVec.ofNat 8 (body.length + 2) :: kind :: seq :: body
  let c := checkOf covered
  Config.sync :: covered ++ [lowByte c, highByte c]

/-! ### Drop-line frames (R2, R5, R6, R15, R62) -/

/-- The kind codes of R6. -/
def FrameKind.code : FrameKind → Byte
  | .request => 0
  | .post => 1
  | .probe => 2
  | .reply => 3

/-- The head's data byte: the kind times 64, plus the address (R6). -/
def headByte (kind : FrameKind) (addr : Addr) : Byte := (kind.code <<< 6) ||| addr.setWidth 8

/-- The kind a head's data byte gives: its two high bits (R6). -/
def kindOfHead (b : Byte) : FrameKind :=
  match (b >>> 6).toNat with
  | 0 => .request
  | 1 => .post
  | 2 => .probe
  | _ => .reply

/-- The address a head's data byte gives: its six low bits (R6). -/
def addrOfHead (b : Byte) : Addr := b.setWidth 6

/-- The characters of a frame: only the head is marked (R2, R5). -/
def frameChars (kind : FrameKind) (addr : Addr) (payload : List Byte) : List LineChar :=
  let covered := BitVec.ofNat 8 payload.length :: payload
  let c := checkOf (headByte kind addr :: covered)
  ⟨headByte kind addr, true⟩ :: (covered ++ [lowByte c, highByte c]).map fun b => ⟨b, false⟩

/-- The four probe patterns, probe k carrying pattern k modulo 4 (R15). -/
def probePattern (code : ThCode) : List Byte :=
  let half : List Byte :=
    match code.toNat % 4 with
    | 0 => [0x55, 0xAA, 0x55, 0xAA, 0x55, 0xAA, 0x55, 0xAA]
    | 1 => [0x00, 0xFF, 0x00, 0xFF, 0x00, 0xFF, 0x00, 0xFF]
    | 2 => [0x01, 0x02, 0x04, 0x08, 0x10, 0x20, 0x40, 0x80]
    | _ => [0x0F, 0xF0, 0x33, 0xCC, 0x0F, 0xF0, 0x33, 0xCC]
  half ++ half

/-- The address a transaction's head carries: its station, or 0 for a BROADCAST (R6, R62). -/
def Txn.address (t : Txn) : Addr := t.station.getD 0

/-- The frame of a transaction (R62) or of a probe (R142). -/
def Work.frame : Work → List LineChar
  | .txn r =>
    match r.txn.kind with
    | .request => frameChars .request r.txn.address r.txn.payload
    | .post => frameChars .post r.txn.address r.txn.payload
    | .broadcast => frameChars .post 0 r.txn.payload
  | .probe r => frameChars .probe r.station (probePattern r.code)

/-- The eleven bits of a character in sending order: start 0, d0 to d7, mark, stop 1 (R2). -/
def LineChar.bits (c : LineChar) : List Bool :=
  false :: ([0, 1, 2, 3, 4, 5, 6, 7].map fun i => c.data.getLsbD i) ++ [c.mark, true]

/-- The level that carries a bit: 1 at rest, 0 active (section 1.2). -/
def levelOfBit (b : Bool) : Level := if b then .rest else .active

/-! ### Sampling (R3, R4, R85, R138) -/

/-- The three samples near the middle of a bit (R3). -/
structure Samples where
  a : Level
  b : Level
  c : Level
  deriving DecidableEq, Repr

/-- The majority of three samples (R4). -/
def Samples.majority (s : Samples) : Level := if s.a = s.b then s.a else s.c

/-- Samples that disagree make a noisy character (R4). -/
def Samples.disagree (s : Samples) : Bool := !(s.a == s.b && s.b == s.c)

/-- A start bit is accepted if at least two of its samples are active (R3). -/
def Samples.acceptsStart (s : Samples) : Bool := s.majority == .active

/-- A bit collides when its majority differs from the bit being driven (R85). -/
def Samples.collides (s : Samples) (driven : Bool) : Bool := s.majority != levelOfBit driven

/-- The character of R4 from the samples of its start bit, its eight data bits (d0 first), its mark and its stop
bit. -/
def RxChar.ofSamples (start : Samples) (data : Vector Samples 8) (mark stop : Samples) : RxChar :=
  let one (s : Samples) : Bool := s.majority == .rest
  { data := data.toList.foldr (fun s acc => (acc <<< 1) ||| (if one s then 1 else 0)) 0
    mark := one mark
    noisy := start.disagree || data.toList.any Samples.disagree || mark.disagree || stop.disagree
    framing := stop.majority == .active }

/-- The percentage of the nominal swing a threshold stands for, in tenths of a percent (R138). -/
def Threshold.permille (t : Threshold) : Nat :=
  match t.range with
  | .low => 200 + 15 * t.code.toNat
  | .high => 400 + 15 * t.code.toNat

/-- The level of a sample at a given swing from rest, in tenths of a percent of nominal (R138). -/
def sampleLevel (swing : Nat) (t : Threshold) : Level := if t.permille ≤ swing then .active else .rest

/-- Bit rates of the rate codes, bit/s (R1). -/
def lineRate (code : Byte) : Option Nat := [19200, 57600, 250000, 500000, 1000000, 2000000][code.toNat]?

/-- Host link rates of the LINKSEL values, bit/s (R152). -/
def linkRate (sel : BitVec 2) : Nat :=
  match sel.toNat with
  | 0 => 115200
  | 1 => 460800
  | 2 => 921600
  | _ => 3000000

/-! ### Host-link bytes (R152, R153) -/

/-- The level at which RXD and TXD rest, that of a stop bit: high (R152). -/
def linkRest : Bool := true

/-- The ten bits of a host-link byte in sending order: start bit low, d0 to d7, stop bit high, no parity bit
(R152). -/
def hostByteBits (b : Byte) : List Bool :=
  false :: ([0, 1, 2, 3, 4, 5, 6, 7].map fun i => b.getLsbD i) ++ [true]

/-- The byte of eight data bits, each sampled at its middle, least significant first (R152). -/
def byteOfBits (data : Vector Bool 8) : Byte :=
  data.toList.foldr (fun bit acc => (acc <<< 1) ||| (if bit then 1 else 0)) 0

/-- What the receiver hands to the framer after a falling edge of RXD: the byte when its stop bit is sampled high,
and otherwise a framing error or, once RXD has stayed low for twenty bit times, a break. `low` is how long RXD stays
low, in bit times from the falling edge that last took it low (R152, R153). -/
def hostByteEvent (data : Vector Bool 8) (stop : Bool) (low : Nat) : Instr :=
  if stop then .hostByteReceived (byteOfBits data)
  else if low < Config.breakBits then .charFraming
  else .linkBreak

/-- The resistance of a termination code in ohms; none for code 0 (R98). -/
def termOhms (code : TermCode) : Option Nat :=
  if code = 0 then none else [330, 220, 150, 120, 100, 68, 47][code.toNat - 1]?

end Sys2Proof.Machine
end

