-- ==== Sys2Proof/Machine/Flags.lean ====
section
/-! DEFINITION. The conditions and records a port keeps current by computation: the idle condition, the exchange, the
selected termination, the stuck-line timer (R11, R95, R101, R102). -/

namespace Sys2Proof.Machine

/-- A saturating 16-bit counter increased by `n` (00_scope, Counters). -/
def satAdd (c : Word16) (n : Nat) : Word16 := BitVec.ofNat 16 (min 65535 (c.toNat + n))

/-- A saturating 16-bit counter increased by one. -/
def satInc (c : Word16) : Word16 := satAdd c 1

/-- READY and DEGRADED carry traffic alike (R19). -/
def PortState.inService : PortState → Bool
  | .ready => true
  | .degraded => true
  | .off => false
  | .trimming _ => false
  | .doze => false
  | .faulted _ => false

/-- The states whose receiver runs: TRIMMING, READY and DEGRADED (R3). -/
def PortState.receives : PortState → Bool
  | .ready => true
  | .degraded => true
  | .trimming _ => true
  | .off => false
  | .doze => false
  | .faulted _ => false

/-- The idle condition (R11). -/
def Port.lineIdle (q : Port) : Bool := q.line.restCount == Config.idleBits

/-- The phase of the port's exchange, if it has one. -/
def Port.phase (q : Port) : Option Phase := q.inFlight.map InFlight.phase

/-- An exchange in SENDING, TURNAROUND, AWAITING or RECEIVING (R95). -/
def Port.inExchange (q : Port) : Bool :=
  match q.phase with
  | some .sending => true
  | some .turnaround => true
  | some .awaiting => true
  | some .receiving => true
  | some .waitingIdle => false
  | some .recovering => false
  | none => false

/-- The stuck-line timer's condition (R95): it counts while the receiver runs, the line is not idle and no exchange
is in its four phases; otherwise it stands at zero, and it is stopped while the receiver is off. -/
def Port.stuckTimer (q : Port) : StuckTimer :=
  if q.line.receiver = .off then .stopped
  else if q.lineIdle || q.inExchange then .zero
  else .counting

/-- PARK, else HIGH_Z. -/
def Profile.parkOrNone (f : Profile) : Selection :=
  match f.park with
  | some c => ⟨.park, c⟩
  | none => ⟨.highZ, 0⟩

/-- NOMINAL if hold is on, else PARK, else HIGH_Z. -/
def Profile.nominalOrPark (f : Profile) : Selection :=
  match f.hold, f.nominal with
  | true, some c => ⟨.nominal, c⟩
  | _, _ => f.parkOrNone

/-- LISTEN, else as between exchanges. -/
def Profile.listenOr (f : Profile) : Selection :=
  match f.listen with
  | some c => ⟨.listen, c⟩
  | none => f.nominalOrPark

/-- The selection table of R102, its rows tried from the top. -/
def Port.selectTermination (q : Port) : Selection :=
  if !q.state.receives then ⟨.highZ, 0⟩
  else if q.phase = some .sending then ⟨.highZ, 0⟩
  else if q.claim = .window then q.profile.parkOrNone
  else if q.inExchange then q.profile.listenOr
  else q.profile.nominalOrPark

/-- The records that follow from the rest of the port, brought up to date (R95, R101). -/
def Port.refresh (q : Port) : Port :=
  { q with selected := q.selectTermination, line := { q.line with stuck := q.stuckTimer } }

end Sys2Proof.Machine
end

