-- ==== Sys2Proof/Machine/Ops.lean ====
section
/-! DEFINITION. The shared operations under every meaning: access to ports, responses and notices, the live tag set,
the line interface's switches, and the passing of time on an empty queue. -/

namespace Sys2Proof.Machine

/-! ### Ports -/

/-- Port `p`. -/
def State.port (s : State) (p : PortId) : Port := s.ports.get p

/-- Port `p` replaced, its computed records brought up to date (R95, R101). Every write of one port goes
through here. -/
def State.setPort (s : State) (p : PortId) (q : Port) : State := { s with ports := s.ports.set p.val q.refresh }

/-- Port `p` changed by `f`. -/
def State.modPort (s : State) (p : PortId) (f : Port → Port) : State := s.setPort p (f (s.port p))

/-- Every port `p` changed by `f p`, its computed records brought up to date. -/
def State.mapPorts (s : State) (f : PortId → Port → Port) : State :=
  { s with ports := Vector.ofFn fun p => (f p (s.port p)).refresh }

/-! ### Transmission, responses and notices (R157 to R160) -/

/-- A notice placed at the tail with the next notice number (R159). -/
def Link.enqueue (l : Link) (n : Notice) : Link :=
  { l with notices := l.notices ++ [⟨l.nextNotice, n⟩], nextNotice := l.nextNotice + 1 }

/-- The oldest notice leaves for the transmitter. A place freed in a full queue goes to NOTICES_LOST at once when
the lost count is above 0 (R158, R160). -/
def Link.takeNotice (l : Link) : Link :=
  match l.notices with
  | [] => l
  | n :: rest =>
    let taken := { l with notices := rest, tx := .notice n }
    if l.notices.length = Config.noticePlaces ∧ l.lost ≠ 0 then
      { taken.enqueue (.noticesLost l.lost) with lost := 0 }
    else taken

/-- An IDLE transmitter takes the oldest response, or else, unless HUB_RESET drains, the oldest notice (R158,
R162). -/
def Link.transmit (l : Link) (draining : Bool) : Link :=
  match l.tx with
  | .idle =>
    match l.responses with
    | r :: rest => { l with responses := rest, tx := .response r }
    | [] => if draining then l else l.takeNotice
  | .response _ => l
  | .notice _ => l

/-- A notice posted: it enters, or finds the queue full and is counted as lost (R159, R160). -/
def Link.post (l : Link) (n : Notice) : Link :=
  if l.notices.length < Config.noticePlaces then l.enqueue n else { l with lost := satInc l.lost }

/-- A block posts a notice; an IDLE transmitter takes the next frame at once. -/
def postNotice (n : Notice) (s : State) : State :=
  { s with link := (s.link.post n).transmit s.cmd.draining }

/-- The command unit queues a response; an IDLE transmitter takes the next frame at once (R157, R158). -/
def postResponse (r : Response) (s : State) : State :=
  { s with link := { s.link with responses := s.link.responses ++ [r] }.transmit s.cmd.draining }

/-- A command that is an event of the running hub: while RESET_N is low, and through start-up, nothing else
happens (R161). -/
def whenRunning (s : State) (f : State → State) : State :=
  match s.power with
  | .running => f s
  | .heldReset => s
  | .startUp _ => s

/-! ### The live tag set (R57) -/

/-- The live entry of a tag. -/
def State.liveTag (s : State) (tag : Word16) : Option LiveTag := s.cmd.live.find? fun e => e.tag == tag

/-- A tag enters the set (R60). -/
def addTag (tag : Word16) (p : PortId) (s : State) : State :=
  { s with cmd := { s.cmd with live := s.cmd.live ++ [⟨tag, p⟩] } }

/-- A tag leaves the set (R57, R75). -/
def dropTag (tag : Word16) (s : State) : State :=
  { s with cmd := { s.cmd with live := s.cmd.live.filter fun e => e.tag != tag } }

/-! ### The line interface -/

/-- The receiver is switched on (R17, R97): hunting, HUNT, idle count at zero, no last sample, timers stopped. The
stuck-line timer follows from `refresh`. -/
def LineIf.switchOn (l : LineIf) : LineIf :=
  { l with receiver := .hunting, assembler := .hunt, restCount := 0, lastSample := none, gapRunning := false,
           turnaround := none, reply := .stopped, driver := .released, sending := [],
           threshold := .portDefault, spoilWatch := none }

/-- The receiver is switched off and the driver left as `driver` (R17, R28, R97). -/
def LineIf.switchOff (l : LineIf) (driver : Driver) : LineIf :=
  { l with receiver := .off, assembler := .hunt, restCount := 0, lastSample := none, gapRunning := false,
           turnaround := none, reply := .stopped, driver := driver, sending := [],
           threshold := .portDefault, spoilWatch := none }

/-- The exchange's part of the line ends: a frame being sent is cut and its driver released, the turnaround and
reply timers stop without a report, and the threshold returns to the port default (R23, R63, R139). -/
def LineIf.endExchange (l : LineIf) : LineIf :=
  { l with driver := (if l.driver = .driving then .released else l.driver), sending := [], turnaround := none,
           reply := .stopped, threshold := .portDefault }

/-- The port's exchange ends and nothing is in flight. -/
def Port.endExchange (q : Port) : Port := { q with inFlight := none, line := q.line.endExchange }

/-- A sample at the active level (R83): the line is not idle, and the first one in a window makes its spoil report
(R84). -/
def Port.sampleActive (q : Port) : Port :=
  match q.line.spoilWatch with
  | some n =>
    { q with spoils := q.spoils ++ [n],
             line := { q.line with restCount := 0, lastSample := some .active, spoilWatch := none } }
  | none => { q with line := { q.line with restCount := 0, lastSample := some .active } }

/-- A sample at the rest level: a receiver that waits for one hunts again (R4, R85). -/
def Port.sampleRest (q : Port) : Port :=
  { q with line := { q.line with
      lastSample := some .rest
      receiver := match q.line.receiver with
        | .waitRest => .hunting
        | .off => .off
        | .hunting => .hunting
        | .inCharacter => .inCharacter } }

/-! ### Port state -/

/-- The quick-cal timer stops when the port enters OFF, TRIMMING, DOZE or FAULTED (R133). -/
def QuickTimer.inState (t : QuickTimer) (st : PortState) : QuickTimer := if st.inService then t else .stopped

/-- A transition of R20: the new state, and its PORT_STATE notice. -/
def moveTo (p : PortId) (st : PortState) (cause : TransCause) (s : State) : State :=
  postNotice (.portState p st cause) (s.modPort p fun q => { q with state := st, timer := q.timer.inState st })

/-- A request for the port is handed to the trim unit while its claim is NONE: a new claim number, claim QUEUED,
attempt 1 (R112). -/
def Port.handOver (p : PortId) (kind : CalKind) (origin : CalOrigin) (q : Port) : Port :=
  { q with
    claimNumber := q.claimNumber + 1
    claim := .queued
    claimKind := some kind
    toTrim := q.toTrim ++ [.request ⟨p, kind, origin, 1, q.claimNumber + 1⟩] }

/-- The claim is withdrawn (R24): nothing for NONE; otherwise the withdrawal is sent, the claim becomes NONE, the
window's spoil report is no longer made (R97), and a driver that the window disconnected is reconnected. -/
def Port.withdraw (q : Port) : Port :=
  match q.claim with
  | .none => q
  | .queued | .granted | .window =>
    { q with
      claim := .none
      claimKind := none
      toTrim := q.toTrim ++ [.withdraw q.claimNumber]
      line := { q.line with
        spoilWatch := none
        driver := if q.line.driver = .disconnected then .released else q.line.driver } }

end Sys2Proof.Machine
end

