-- ==== Sys2Proof/Machine/Reference.lean ====
section
/-! DEFINITION. The trim unit's shared operations: the reference queue, grant and release, requests, measuring,
closing and withdrawal, and the interval (chapters 7 and 8). -/

namespace Sys2Proof.Machine

/-! ### Queue, grant and messages -/

/-- The trim unit replaced. -/
def State.setTrim (s : State) (u : TrimUnit) : State := { s with trim := u }

/-- The trim unit sends a port engine a message; messages to one port arrive in the order sent (log 4). -/
def sendPort (p : PortId) (m : TrimMsg) (s : State) : State :=
  s.modPort p fun q => { q with fromTrim := q.fromTrim ++ [m] }

/-- A free reference goes to the queue head, which becomes the holder in GRANTED, and the grant is sent (R117). -/
def grantHead (s : State) : State :=
  match s.trim.holder, s.trim.queue with
  | none, r :: rest =>
    sendPort r.port (.granted r.number) (s.setTrim { s.trim with queue := rest, holder := some ⟨r, .granted⟩ })
  | _, _ => s

/-- A request enters at the tail, and is granted at once if the reference is free (R114, R117). -/
def enterTail (r : Request) (s : State) : State :=
  grantHead (s.setTrim { s.trim with queue := s.trim.queue ++ [r] })

/-- The port's request in the reference queue (R113: at most one). -/
def TrimUnit.queuedOf (u : TrimUnit) (p : PortId) : Option Request := u.queue.find? fun r => r.port == p

/-- The holder, if it is the port's. -/
def TrimUnit.holderOf (u : TrimUnit) (p : PortId) : Option Holder := u.holder.filter fun h => h.request.port == p

/-- A QUICK request becomes FULL, of origin HOST if either was (R115). -/
def Request.upgrade (r : Request) (arriving : CalOrigin) : Request :=
  { r with kind := .full, origin := if r.origin = .host ∨ arriving = .host then .host else .auto }

/-- The trim unit takes a request: CAL_BUSY while the port holds the reference, merged or upgraded while a request
of the port is queued, and otherwise entered at the tail (R114 to R116). -/
def takeRequest (r : Request) (s : State) : Result × State :=
  if (s.trim.holderOf r.port).isSome then (.calBusy, s)
  else
    match s.trim.queuedOf r.port with
    | some w =>
      if w.kind = .quick ∧ r.kind = .full then
        (.upgraded,
          sendPort r.port (.upgraded w.number)
            (s.setTrim { s.trim with
              queue := s.trim.queue.map fun e => if e.port = r.port then e.upgrade r.origin else e }))
      else (.merged, s)
    | none => (.ok, enterTail r s)

/-! ### Measuring (R118 to R121) -/

/-- The trim record of a port. -/
def State.codes (s : State) (p : PortId) : Trim := (s.port p).line.trim

/-- The trim record of a port written (R110). -/
def setCodes (p : PortId) (t : Trim) (s : State) : State :=
  s.modPort p fun q => { q with line := { q.line with trim := t } }

/-- The code of a leg. -/
def Trim.get (t : Trim) : Leg → TrimCode
  | .pu => t.pu
  | .pd => t.pd
  | .tc => t.tc

/-- A leg set to a code. -/
def Trim.put (t : Trim) (l : Leg) (c : TrimCode) : Trim :=
  match l with
  | .pu => { t with pu := c }
  | .pd => { t with pd := c }
  | .tc => { t with tc := c }

/-- The order of legs: PU, PD, TC (section 7.4). -/
def Leg.next : Leg → Option Leg
  | .pu => some .pd
  | .pd => some .tc
  | .tc => none

/-- The bit value of a leg's first comparison (R119). -/
def firstBit : TrimCode := 32

/-- The engine and the codes at the start of a measurement (R119, R120): a FULL one sets its first trial code. -/
def startEngine (kind : CalKind) (t : Trim) : Engine × Trim :=
  match kind with
  | .full => (.full .pu firstBit 0, t.put .pu firstBit)
  | .quick => (.quick .pu false, t)

/-- How a comparison leaves the measurement: still measuring, or ended with an outcome (R121). -/
inductive Measured where
  | more (engine : Engine) (codes : Trim)
  | ended (outcome : WindowOutcome) (codes : Trim)
  deriving DecidableEq, Repr

/-- A FULL result at 0 or 63 (R121). -/
def TrimCode.atEnd (c : TrimCode) : Bool := c == 0 || c == 63

/-- One FULL comparison (R119, R121). -/
def fullStep (leg : Leg) (bit result : TrimCode) (notBelow : Bool) (t : Trim) : Measured :=
  let result := if notBelow then result + bit else result
  let bit := bit >>> 1
  if bit ≠ 0 then .more (.full leg bit result) (t.put leg (result + bit))
  else
    let t := t.put leg result
    match leg.next with
    | some l => .more (.full l firstBit 0) (t.put l firstBit)
    | none =>
      .ended (if TrimCode.atEnd t.pu || TrimCode.atEnd t.pd || TrimCode.atEnd t.tc then .rail else .done) t

/-- One QUICK correction: the code, and whether the leg is at its rail (R120). -/
def quickMove (answer : Comparison) (c : TrimCode) : TrimCode × Bool :=
  match answer with
  | .down => if c = 0 then (c, true) else (c - 1, false)
  | .up => if c = 63 then (c, true) else (c + 1, false)
  | .hold | .below | .notBelow => (c, false)

/-- One QUICK comparison (R120, R121). -/
def quickStep (leg : Leg) (rail : Bool) (answer : Comparison) (t : Trim) : Measured :=
  let moved := quickMove answer (t.get leg)
  let t := t.put leg moved.1
  let rail := rail || moved.2
  match leg.next with
  | some l => .more (.quick l rail) t
  | none => .ended (if rail then .rail else .done) t

/-- The engine takes an answer; an answer of the other kind of measurement is none of this one's. -/
def Engine.take (e : Engine) (answer : Comparison) (t : Trim) : Option Measured :=
  match e, answer with
  | .full l b r, .below => some (fullStep l b r false t)
  | .full l b r, .notBelow => some (fullStep l b r true t)
  | .full _ _ _, .down | .full _ _ _, .up | .full _ _ _, .hold => none
  | .quick l k, .down => some (quickStep l k .down t)
  | .quick l k, .up => some (quickStep l k .up t)
  | .quick l k, .hold => some (quickStep l k .hold t)
  | .quick _ _, .below | .quick _ _, .notBelow => none

/-- The holder moves to ENDING and the window end is sent (R121 to R123). The window makes no further spoil report
(R84). -/
def endWindow (r : Request) (start : Trim) (outcome : WindowOutcome) (changed : Bool) (s : State) : State :=
  sendPort r.port (.windowEnd r.number outcome r.kind r.origin changed)
    ((s.setTrim { s.trim with holder := some ⟨r, .ending start outcome changed⟩ }).modPort r.port fun q =>
      { q with line := { q.line with spoilWatch := none } })

/-! ### Closing (R123, R124, R128) -/

/-- The outcome a CAL_DONE reports for a final window outcome. -/
def WindowOutcome.final : WindowOutcome → Option CalOutcome
  | .done => some .done
  | .rail => some .rail
  | .failed => some .failed
  | .spoiled => none

/-- CAL_DONE where R128 requires one: kind FULL, origin HOST, or an outcome other than DONE. -/
def reportCal (r : Request) (o : CalOutcome) (s : State) : State :=
  if r.kind = .full ∨ r.origin = .host ∨ o ≠ .done then postNotice (.calDone r o (s.codes r.port)) s else s

/-- The trim unit closes a window in ENDING (R123 step 3): CAL_DONE, release, a SPOILED request to the tail with
its attempt number increased, the closure, and the grant of the queue head. -/
def closeWindow (r : Request) (outcome : WindowOutcome) (s : State) : State :=
  let s := match outcome.final with
    | some o => reportCal r o s
    | none => s
  let requeued := outcome = .spoiled
  let queue := if requeued then s.trim.queue ++ [{ r with attempt := r.attempt + 1 }] else s.trim.queue
  grantHead (sendPort r.port (.closure r.number requeued)
    (s.setTrim { s.trim with holder := none, queue := queue }))

/-- The line of an abandoned window: no spoil report, and a disconnected driver reconnected (R24, R97). -/
def Port.abandonWindow (q : Port) : Port :=
  { q with line := { q.line with
      spoilWatch := none
      driver := if q.line.driver = .disconnected then .released else q.line.driver } }

/-- The window-start codes while a window is not closed (R111). -/
def HolderPhase.startCodes : HolderPhase → Option Trim
  | .granted => none
  | .measuring start _ => some start
  | .ending start _ _ => some start

/-- The trim unit takes a withdrawal (R124): from the queue, from the holder with the codes put back where a window
had opened, or from nowhere. Its CAL_DONE follows every notice of the flush that sent it (log 25, DESIGN CHOICE). -/
def takeWithdrawal (p : PortId) (number : Byte) (s : State) : State :=
  match s.trim.holder.filter fun h => h.request.port == p && h.request.number == number with
  | some h =>
    let s := (match h.phase.startCodes with
      | some start => setCodes p start s
      | none => s).modPort p Port.abandonWindow
    grantHead (reportCal h.request .abandoned (s.setTrim { s.trim with holder := none }))
  | none =>
    match s.trim.queue.find? fun r => r.port == p && r.number == number with
    | some r =>
      grantHead (reportCal r .abandoned
        (s.setTrim { s.trim with queue := s.trim.queue.filter fun e => !(e.port == p && e.number == number) }))
    | none => s

/-- The trim unit takes window open in GRANTED (R118): it keeps the window-start codes, has the driver disconnected,
starts the engine, and the detector's report for this window becomes possible (R84). A port whose receiver the
withdrawal has meanwhile switched off keeps its driver (R24). -/
def takeWindowOpen (p : PortId) (number : Byte) (s : State) : State :=
  match s.trim.holder.filter fun h =>
      h.request.port == p && h.request.number == number && decide (h.phase = .granted) with
  | none => s
  | some h =>
    let start := s.codes p
    let begun := startEngine h.request.kind start
    (setCodes p begun.2
      (s.setTrim { s.trim with holder := some ⟨h.request, .measuring start begun.1⟩ })).modPort p fun q =>
        if q.state.receives then
          { q with line := { q.line with driver := .disconnected, spoilWatch := some number } }
        else q

/-- The trim unit takes an acknowledgement in ENDING (R123). -/
def takeAcknowledgement (p : PortId) (number : Byte) (s : State) : State :=
  match s.trim.holder with
  | none => s
  | some h =>
    if h.request.port = p ∧ h.request.number = number then
      match h.phase with
      | .ending _ outcome _ => closeWindow h.request outcome s
      | .granted => s
      | .measuring _ _ => s
    else s

/-- The trim unit takes one message of a port engine, whichever it is. -/
def takePortMsg (p : PortId) (m : PortMsg) (s : State) : State :=
  match m with
  | .request r => (takeRequest r s).2
  | .windowOpen n => takeWindowOpen p n s
  | .acknowledge n => takeAcknowledgement p n s
  | .withdraw n => takeWithdrawal p n s

/-- The oldest message of a port leaves its mailbox. -/
def dropPortMsg (p : PortId) (s : State) : State := s.modPort p fun q => { q with toTrim := q.toTrim.tail }

/-- The trim unit takes every message the port engine has sent so far, in order (log 5). -/
def drainPort (p : PortId) (s : State) : State :=
  (s.port p).toTrim.foldl (fun s m => takePortMsg p m (dropPortMsg p s)) s

/-- A spoil report (R122): while the holder's window is measuring it stops the engine, puts the codes back and ends
the window SPOILED, or FAILED on attempt 3. -/
def takeSpoil (p : PortId) (number : Byte) (s : State) : State :=
  match s.trim.holder with
  | none => s
  | some h =>
    if h.request.port = p ∧ h.request.number = number then
      match h.phase with
      | .measuring start _ =>
        endWindow h.request start
          (if h.request.attempt < Config.maxCalAttempts then .spoiled else .failed) false (setCodes p start s)
      | .granted => s
      | .ending _ _ _ => s
    else s

/-- A comparison is decided (R119 to R121). The changed flag compares the final codes with the window-start codes
(R111). -/
def takeComparison (answer : Comparison) (s : State) : State :=
  match s.trim.holder with
  | none => s
  | some h =>
    match h.phase with
    | .measuring start engine =>
      match engine.take answer (s.codes h.request.port) with
      | none => s
      | some (.more engine codes) =>
        setCodes h.request.port codes
          (s.setTrim { s.trim with holder := some ⟨h.request, .measuring start engine⟩ })
      | some (.ended outcome codes) =>
        endWindow h.request start outcome (codes != start) (setCodes h.request.port codes s)
    | .granted => s
    | .ending _ _ _ => s

/-! ### The interval (R131) -/

/-- The interval of a drift record, in milliseconds (R131). -/
def intervalOf (dT dV : Nat) : Nat :=
  if dT = 0 ∧ dV = 0 then Config.maxInterval
  else max Config.minInterval (min Config.maxInterval (Config.driftBudget / (Config.sT * dT + Config.sV * dV)))

end Sys2Proof.Machine
end

