-- ==== Sys2Proof/Machine/Stations.lean ====
section
/-! DEFINITION. The station table's operations: lookup, completions, noise, late replies (chapter 3). -/

namespace Sys2Proof.Machine

/-- The entry that carries an address, or absent (R39). -/
def Port.station (q : Port) (a : Addr) : Option Station := q.stations.find? fun e => e.addr == a

/-- The position of an address, 1 to 16 from the oldest (R39); 0 if absent. -/
def Port.position (q : Port) (a : Addr) : Nat :=
  let i := q.stations.findIdx fun e => e.addr == a
  if i < q.stations.length then i + 1 else 0

/-- The entry of an address changed by `f`; no other entry changes. -/
def Port.modStation (q : Port) (a : Addr) (f : Station → Station) : Port :=
  { q with stations := q.stations.map fun e => if e.addr = a then f e else e }

/-- The values of a new entry (R40); `th` is the threshold given, if one was (R48). -/
def Station.create (a : Addr) (th : Option Threshold) : Station :=
  { addr := a, state := .active, failureRun := 0, strikes := 0,
    threshold := th.getD .portDefault,
    origin := if th.isSome then .manual else .default,
    lastWindow := none, completed := 0, failed := 0, late := 0, noisy := 0 }

/-- The failure run increased by one, stopping at 255 (R42). -/
def incRun (r : Byte) : Byte := if r = 255 then r else r + 1

/-- The state after a failed transaction leaves the failure run at `run` (R42). -/
def StationState.afterFailure (st : StationState) (run : Byte) : StationState :=
  match st with
  | .active => if run.toNat < 3 then .suspect else .silent
  | .suspect => if run.toNat < 3 then .suspect else .silent
  | .silent => .silent
  | .quarantined => .quarantined

/-- The state after a good reply (R42). -/
def StationState.afterReply : StationState → StationState
  | .active => .active
  | .suspect => .active
  | .silent => .active
  | .quarantined => .quarantined

/-- What a completion does to an outcome's counters (R41) and, for a REQUEST, to the failure run and the state
(R42). -/
def Station.complete (e : Station) (kind : TxnKind) (o : TxnOutcome) : Station :=
  match o with
  | .done =>
    let e := { e with completed := satInc e.completed }
    if kind = .request then { e with failureRun := 0, state := e.state.afterReply } else e
  | .noReply | .badReply | .collided =>
    let e := { e with failed := satInc e.failed }
    if kind = .request then
      { e with failureRun := incRun e.failureRun, state := e.state.afterFailure (incRun e.failureRun) }
    else e
  | .cancelled | .portDisabled | .portReset | .portFaulted | .stationQuarantined => e

/-- The cause a STATION_STATE of a completion carries (R46). -/
def TxnOutcome.stationCause (o : TxnOutcome) : StationCause := if o = .done then .reply else .failures

/-- The entry of an address is changed by `f`, and a STATION_STATE is queued exactly when its state changed (R46);
an absent address changes nothing. -/
def updateStation (p : PortId) (a : Addr) (f : Station → Station) (cause : StationCause) (s : State) : State :=
  match (s.port p).station a with
  | none => s
  | some e =>
    let s := s.modPort p fun q => q.modStation a f
    if (f e).state = e.state then s else postNotice (.stationState p a (f e).state cause) s

/-- A completion is handed to the station table (R41, R42). A BROADCAST names no station. -/
def tableCompletion (p : PortId) (t : Txn) (o : TxnOutcome) (s : State) : State :=
  match t.station with
  | none => s
  | some a => updateStation p a (fun e => e.complete t.kind o) o.stationCause s

/-- A noise report: the noisy count of a frame is added to the station's counter; an absent address counts nowhere
(R47, R94). -/
def Port.noiseReport (q : Port) (a : Addr) (n : Nat) : Port :=
  q.modStation a fun e => { e with noisy := satAdd e.noisy n }

/-- A stray frame is counted (R93). -/
def Port.countStray (q : Port) : Port :=
  { q with counters := { q.counters with strays := satInc q.counters.strays } }

/-- A late reply report; if the address is absent a stray frame is counted instead (R47, R91). -/
def Port.lateReport (q : Port) (a : Addr) : Port :=
  if (q.station a).isSome then q.modStation a fun e => { e with late := satInc e.late } else q.countStray

/-- A sweep's result reaches the entry (R53). -/
def Port.setSwept (q : Port) (a : Addr) (th : Threshold) (w : SweepWindow) : Port :=
  q.modStation a fun e => { e with threshold := th, origin := .swept, lastWindow := some w }

end Sys2Proof.Machine
end

