-- ==== Sys2Proof/Machine/Layout.lean ====
section
/-! DEFINITION. What the hub reports: the codes of R163 and R166, the data of the status responses (R166 to R169) and
the bodies of the notices (R170). -/

namespace Sys2Proof.Machine

/-! ### Codes -/

/-- Two bytes, low first (R163). -/
def le (w : Word16) : List Byte := [lowByte w, highByte w]

/-- A number as two bytes, low first. -/
def leNat (n : Nat) : List Byte := le (BitVec.ofNat 16 n)

/-- A number as one byte. -/
def byte (n : Nat) : Byte := BitVec.ofNat 8 n

/-- A port number as a byte. -/
def portByte (p : PortId) : Byte := byte p.val

/-- Result codes (R166). -/
def Result.code : Result → Byte
  | .ok => 0x00
  | .merged => 0x01
  | .upgraded => 0x02
  | .unknownCommand => 0x03
  | .badLength => 0x04
  | .badValue => 0x05
  | .badPort => 0x06
  | .portState => 0x07
  | .portBusy => 0x08
  | .portDozing => 0x09
  | .queueFull => 0x0A
  | .duplicateTag => 0x0B
  | .unknownStation => 0x0C
  | .stationExists => 0x0D
  | .tableFull => 0x0E
  | .stationBusy => 0x0F
  | .stationQuarantined => 0x10
  | .calBusy => 0x11
  | .sweepBusy => 0x12
  | .notFound => 0x13
  | .inFlight => 0x14

/-- Port state codes (R163). -/
def PortState.code : PortState → Byte
  | .off => 1
  | .trimming _ => 2
  | .ready => 3
  | .degraded => 4
  | .doze => 5
  | .faulted _ => 6

/-- Calibration and trimming kind codes (R163). -/
def CalKind.code : CalKind → Byte
  | .full => 1
  | .quick => 2

/-- Fault cause codes (R163). -/
def FaultCause.code : FaultCause → Byte
  | .trim => 1
  | .stuck => 2
  | .contention => 3

/-- The qualifier of a port state (R168 byte 2). -/
def PortState.qualifier : PortState → Byte
  | .trimming k => k.code
  | .faulted c => c.code
  | .off => 0
  | .ready => 0
  | .degraded => 0
  | .doze => 0

/-- Transition cause codes (R163). -/
def TransCause.code : TransCause → Byte
  | .enabled => 0x01
  | .disabled => 0x02
  | .reset => 0x03
  | .dozeEntered => 0x04
  | .dozeLeft => 0x05
  | .upgraded => 0x06
  | .trimmed => 0x07
  | .rail => 0x08
  | .calFailed => 0x09
  | .recovered => 0x0A
  | .stuck => 0x0B
  | .contention => 0x0C

/-- Transaction outcome codes (R163). -/
def TxnOutcome.code : TxnOutcome → Byte
  | .done => 1
  | .noReply => 2
  | .badReply => 3
  | .collided => 4
  | .cancelled => 5
  | .portDisabled => 6
  | .portFaulted => 7
  | .portReset => 8
  | .stationQuarantined => 9

/-- Calibration origin codes (R163). -/
def CalOrigin.code : CalOrigin → Byte
  | .auto => 1
  | .host => 2

/-- Calibration outcome codes (R163). -/
def CalOutcome.code : CalOutcome → Byte
  | .done => 1
  | .rail => 2
  | .failed => 3
  | .abandoned => 4

/-- Reference claim codes (R163). -/
def Claim.code : Claim → Byte
  | .none => 1
  | .queued => 2
  | .granted => 3
  | .window => 4

/-- Holder phase codes (R163). -/
def HolderPhase.code : HolderPhase → Byte
  | .granted => 1
  | .measuring _ _ => 2
  | .ending _ _ _ => 3

/-- Timer condition codes (R163). -/
def QuickTimer.code : QuickTimer → Byte
  | .stopped => 1
  | .running _ => 2
  | .expired => 3

/-- The remaining time while RUNNING, 1 to 60 000, and 0 otherwise (R168). A timer whose expiry has not been taken yet is
in its last millisecond (log 8). -/
def QuickTimer.remaining : QuickTimer → Nat
  | .running ms => max ms 1
  | .stopped => 0
  | .expired => 0

/-- Termination role codes (R163). -/
def TermRole.code : TermRole → Byte
  | .highZ => 1
  | .park => 2
  | .nominal => 3
  | .listen => 4

/-- Threshold range codes (R163). -/
def ThRange.code : ThRange → Byte
  | .low => 1
  | .high => 2

/-- Threshold origin codes (R163). -/
def ThOrigin.code : ThOrigin → Byte
  | .default => 1
  | .manual => 2
  | .swept => 3

/-- Station state codes (R163). -/
def StationState.code : StationState → Byte
  | .active => 1
  | .suspect => 2
  | .silent => 3
  | .quarantined => 4

/-- Station state cause codes (R163). -/
def StationCause.code : StationCause → Byte
  | .failures => 1
  | .reply => 2
  | .strike => 3
  | .released => 4

/-- Sweep cause codes (R163). -/
def SweepCause.code : SweepCause → Byte
  | .portDisabled => 1
  | .portReset => 2
  | .portFaulted => 3
  | .stationQuarantined => 4
  | .trimChanged => 5

/-- Link error cause codes (R163). -/
def LinkCause.code : LinkCause → Byte
  | .length => 1
  | .gap => 2
  | .charFraming => 3
  | .brk => 4
  | .check => 5
  | .overflow => 6

/-- Start-up cause codes (R163). -/
def StartCause.code : StartCause → Byte
  | .power => 1
  | .command => 2

/-! ### Status responses -/

/-- The holder's port and phase, FFh and 00h for none (R167 bytes 1 and 2). -/
def holderBytes : Option Holder → List Byte
  | some h => [portByte h.request.port, h.phase.code]
  | none => [0xFF, 0x00]

/-- A reference queue entry (R167). -/
def Request.bytes (r : Request) : List Byte := [portByte r.port, r.kind.code, r.origin.code, byte r.attempt]

/-- HUB_STATUS data (R167). -/
def hubStatusData (s : State) : List Byte :=
  holderBytes s.trim.holder ++ [byte s.trim.queue.length] ++ leNat s.trim.dT ++ leNat s.trim.dV
  ++ leNat s.trim.interval ++ [byte s.link.notices.length] ++ le s.link.lost ++ [byte s.cmd.live.length]
  ++ (s.trim.queue.map Request.bytes).flatten

/-- The tag in flight, or 0 when none is in flight or a probe is (R168, R169). -/
def Port.inFlightTag (q : Port) : Word16 :=
  match q.inFlight with
  | none => 0
  | some f =>
    match f.work with
    | .txn r => r.txn.tag
    | .probe _ => 0

/-- The kind of the claimed calibration (R168 byte 22): as the request stands at the trim unit, or as the port has
recorded it while the request is on its way (log 15). -/
def State.claimedKind (s : State) (p : PortId) : Option CalKind :=
  let q := s.port p
  if q.claim = .none then none
  else
    match s.trim.holder.filter fun h => h.request.port == p && h.request.number == q.claimNumber with
    | some h => some h.request.kind
    | none =>
      match s.trim.queue.find? fun r => r.port == p && r.number == q.claimNumber with
      | some r => some r.kind
      | none => q.claimKind

/-- An optional code, 00h for absent (R163). -/
def optCode (c : Option Byte) : Byte := c.getD 0

/-- A profile role as its code, 00h for absent. -/
def roleByte (c : Option TermCode) : Byte := optCode (c.map fun c => c.setWidth 8)

/-- A flag byte (R163). -/
def flagByte (b : Bool) : Byte := if b then 1 else 0

/-- The swept station and the next code, both 0 when no sweep is active (R168 bytes 19 and 20). -/
def sweepBytes : Option Sweep → List Byte
  | some w => [w.station.setWidth 8, byte w.next]
  | none => [0, 0]

/-- The six port counters (R168 bytes 26 to 37). -/
def PortCounters.bytes (c : PortCounters) : List Byte :=
  le c.framesSent ++ le c.attemptsFailed ++ le c.collisions ++ le c.strays ++ le c.quickDone ++ le c.quickFailed

/-- PORT_STATUS data (R168). -/
def portStatusData (s : State) (p : PortId) : List Byte :=
  let q := s.port p
  [q.state.code, q.state.qualifier, q.settings.rate, q.settings.gap, q.settings.timeout, q.settings.attempts]
  ++ [q.line.trim.pu.setWidth 8, q.line.trim.pd.setWidth 8, q.line.trim.tc.setWidth 8]
  ++ [q.selected.role.code, q.selected.value.setWidth 8]
  ++ [roleByte q.profile.park, roleByte q.profile.nominal, roleByte q.profile.listen, flagByte q.profile.hold]
  ++ [byte q.queue.length] ++ le q.inFlightTag ++ sweepBytes q.sweep
  ++ [q.claim.code, optCode ((s.claimedKind p).map CalKind.code), q.timer.code] ++ leNat q.timer.remaining
  ++ q.counters.bytes ++ [byte q.collisionRun]

/-- A window's start and width, 0 and 0 when absent (R169, R170). -/
def windowBytes : Option SweepWindow → List Byte
  | some w => [byte w.start, byte w.width]
  | none => [0, 0]

/-- STATION_STATUS data (R169). -/
def stationStatusData (position : Nat) (e : Station) : List Byte :=
  [byte position, e.addr.setWidth 8, e.state.code, e.failureRun, byte e.strikes, e.threshold.range.code,
    e.threshold.code.setWidth 8, e.origin.code]
  ++ windowBytes e.lastWindow ++ le e.completed ++ le e.failed ++ le e.late ++ le e.noisy

/-- QUEUE_LIST data (R169). -/
def queueListData (q : Port) : List Byte :=
  le q.inFlightTag ++ [byte q.queue.length] ++ (q.queue.map fun t => le t.tag).flatten

/-- A response's BODY: the result code, then the data (R166). -/
def Response.body (r : Response) : List Byte := r.result.code :: r.data

/-! ### Notices (R170) -/

/-- The KIND of a notice. -/
def Notice.kind : Notice → Byte
  | .hubReady _ => 0x40
  | .txnDone _ _ _ _ _ => 0x41
  | .calDone _ _ _ => 0x42
  | .sweepDone _ _ _ _ _ => 0x43
  | .portState _ _ _ => 0x44
  | .stationState _ _ _ _ => 0x45
  | .linkError _ => 0x46
  | .noticesLost _ => 0x47

/-- Eight entries of a pass map as a byte, the first in the lowest bit: 1 for PASS (R170). -/
def passByte (es : List PassEntry) : Byte := es.foldr (fun e acc => (acc <<< 1) ||| flagByte (e == .pass)) 0

/-- The four pass map bytes (R170). -/
def passMapBytes (m : List PassEntry) : List Byte :=
  [passByte (m.take 8), passByte ((m.drop 8).take 8), passByte ((m.drop 16).take 8), passByte ((m.drop 24).take 8)]

/-- SWEEP_DONE's outcome, cause, chosen code, window start and width (R150, R170 bytes 3 to 7). -/
def SweepEnd.bytes : SweepEnd → List Byte
  | .done code start width => [1, 0, byte code, byte start, byte width]
  | .noWindow w => [2, 0, 0xFF] ++ windowBytes w
  | .abandoned c => [3, c.code, 0xFF, 0, 0]

/-- The BODY of a notice (R170). -/
def Notice.body : Notice → List Byte
  | .hubReady c => [c.code]
  | .txnDone tag p o used reply =>
    le tag ++ [portByte p, o.code, byte used, byte (reply.getD []).length] ++ reply.getD []
  | .calDone r o t =>
    [portByte r.port, r.kind.code, r.origin.code, o.code, byte r.attempt, t.pu.setWidth 8, t.pd.setWidth 8,
      t.tc.setWidth 8]
  | .sweepDone p a r how m => [portByte p, a.setWidth 8, r.code] ++ how.bytes ++ passMapBytes m
  | .portState p st c => [portByte p, st.code, st.qualifier, c.code]
  | .stationState p a st c => [portByte p, a.setWidth 8, st.code, c.code]
  | .linkError c => [c.code]
  | .noticesLost n => le n

/-- The bytes on TXD of the frame being sent; none while IDLE (R154, R158). -/
def Tx.bytes : Tx → List Byte
  | .idle => []
  | .response r => hostFrameBytes r.kind r.seq r.body
  | .notice n => hostFrameBytes n.notice.kind n.number n.notice.body

/-- The bits of the frame being sent, byte after byte (R152). -/
def Tx.bits (t : Tx) : List Bool := (t.bytes.map hostByteBits).flatten

/-- TXD `k` bit times after the transmitter took its frame: the frame's bits, and at rest after the last stop bit and
while IDLE (R152, R158). -/
def Tx.level (t : Tx) (k : Nat) : Bool := t.bits.getD k linkRest

end Sys2Proof.Machine
end

