-- ==== Sys2Proof/Machine/Operands.lean ====
section
/-! DEFINITION. The operands of the host commands: every body layout of R164, the common checks of R165 in their
order (length, port, value ranges), and the codes of the fields a command carries (R163). -/

namespace Sys2Proof.Machine

/-- A refusal by a common check, or the operands. -/
abbrev Parsed (α : Type) := Except Result α

/-- The port check: a byte 0 above 7 is refused BAD_PORT (R165). -/
def parsePort (b : Byte) : Parsed PortId :=
  if h : b.toNat < 8 then .ok ⟨b.toNat, h⟩ else .error .badPort

/-- A value check: the field's value, or BAD_VALUE (R165). -/
def value {α : Type} : Option α → Parsed α
  | some a => .ok a
  | none => .error .badValue

/-- A condition on a field, or BAD_VALUE (R165). -/
def inRange (ok : Bool) : Parsed Unit := if ok then .ok () else .error .badValue

/-- A station address from 1 to 63 (R164). -/
def addrOf (b : Byte) : Option Addr := if b.toNat = 0 ∨ 63 < b.toNat then none else some (b.setWidth 6)

/-- Threshold range codes (R163). -/
def rangeOf (b : Byte) : Option ThRange :=
  if b = 1 then some .low else if b = 2 then some .high else none

/-- A threshold code from 0 to 31 (R164). -/
def thCodeOf (b : Byte) : Option ThCode := if b.toNat < 32 then some (b.setWidth 5) else none

/-- Calibration kind codes (R163). -/
def calKindOf (b : Byte) : Option CalKind :=
  if b = 1 then some .full else if b = 2 then some .quick else none

/-- A profile role: 0 absent, or a value code 1 to 7 (R100). -/
def roleOf (b : Byte) : Option (Option TermCode) :=
  if b = 0 then some none else if b.toNat < 8 then some (some (b.setWidth 3)) else none

/-- A flag: 00h off, 01h on (R163). -/
def flagOf (b : Byte) : Option Bool := if b = 0 then some false else if b = 1 then some true else none

/-- Transaction kind codes (R163). -/
def txnKindOf (b : Byte) : Option TxnKind :=
  if b = 1 then some .request else if b = 2 then some .post else if b = 3 then some .broadcast else none

/-- Class codes (R163). -/
def classOf (b : Byte) : Option TxnClass :=
  if b = 1 then some .normal else if b = 2 then some .expedited else none

/-- An empty body (IDENTIFY, HUB_STATUS, HUB_RESET). -/
def parseEmpty : List Byte → Parsed Unit
  | [] => .ok ()
  | _ :: _ => .error .badLength

/-- A body that is one port (PORT_DISABLE, PORT_RESET, PORT_STATUS, QUEUE_LIST). -/
def parsePortOnly : List Byte → Parsed PortId
  | [p] => parsePort p
  | _ => .error .badLength

/-- SET_DRIFT: D_T and D_V (R132). -/
def parseDrift : List Byte → Parsed (Nat × Nat)
  | [t0, t1, v0, v1] => do
    inRange (decide ((word t0 t1).toNat ≤ Config.maxDT ∧ (word v0 v1).toNat ≤ Config.maxDV))
    .ok ((word t0 t1).toNat, (word v0 v1).toNat)
  | _ => .error .badLength

/-- PORT_ENABLE: port and settings, in the ranges of R18. -/
def parseEnable : List Byte → Parsed (PortId × Settings)
  | [p, rate, gap, timeout, attempts] => do
    let p ← parsePort p
    inRange (decide (rate.toNat ≤ 5 ∧ 2 ≤ gap.toNat ∧ gap.toNat ≤ 15 ∧ 1 ≤ timeout.toNat ∧ 1 ≤ attempts.toNat ∧
      attempts.toNat ≤ 4))
    .ok (p, ⟨rate, gap, timeout, attempts⟩)
  | _ => .error .badLength

/-- SET_TERMINATION: port and profile (R100). -/
def parseProfile : List Byte → Parsed (PortId × Profile)
  | [p, park, nominal, listen, hold] => do
    let p ← parsePort p
    let park ← value (roleOf park)
    let nominal ← value (roleOf nominal)
    let listen ← value (roleOf listen)
    let hold ← value (flagOf hold)
    .ok (p, ⟨park, nominal, listen, hold⟩)
  | _ => .error .badLength

/-- Doze directions (R163). -/
inductive DozeDir where
  | enter
  | leave
  deriving DecidableEq, Repr

/-- Doze direction codes (R163). -/
def dozeDirOf (b : Byte) : Option DozeDir :=
  if b = 1 then some .enter else if b = 2 then some .leave else none

/-- DOZE: port and direction (R164). -/
def parseDoze : List Byte → Parsed (PortId × DozeDir)
  | [p, d] => do
    let p ← parsePort p
    let d ← value (dozeDirOf d)
    .ok (p, d)
  | _ => .error .badLength

/-- CALIBRATE: port and kind (R116). -/
def parseCalibrate : List Byte → Parsed (PortId × CalKind)
  | [p, k] => do
    let p ← parsePort p
    let k ← value (calKindOf k)
    .ok (p, k)
  | _ => .error .badLength

/-- ADD_STATION: port, address and the threshold given, absent for the code FFh; the range must be named either way
(R48, R164). -/
def parseAdd : List Byte → Parsed (PortId × Addr × Option Threshold)
  | [p, a, r, c] => do
    let p ← parsePort p
    let a ← value (addrOf a)
    let r ← value (rangeOf r)
    if c = 0xFF then .ok (p, a, none)
    else do
      let c ← value (thCodeOf c)
      .ok (p, a, some ⟨r, c⟩)
  | _ => .error .badLength

/-- A port and an address (REMOVE_STATION, RELEASE_STATION, STATION_STATUS). -/
def parseStation : List Byte → Parsed (PortId × Addr)
  | [p, a] => do
    let p ← parsePort p
    let a ← value (addrOf a)
    .ok (p, a)
  | _ => .error .badLength

/-- SET_THRESHOLD: port, address, range and code (R51). -/
def parseThreshold : List Byte → Parsed (PortId × Addr × Threshold)
  | [p, a, r, c] => do
    let p ← parsePort p
    let a ← value (addrOf a)
    let r ← value (rangeOf r)
    let c ← value (thCodeOf c)
    .ok (p, a, ⟨r, c⟩)
  | _ => .error .badLength

/-- SWEEP: port, address and range (R141). -/
def parseSweep : List Byte → Parsed (PortId × Addr × ThRange)
  | [p, a, r] => do
    let p ← parsePort p
    let a ← value (addrOf a)
    let r ← value (rangeOf r)
    .ok (p, a, r)
  | _ => .error .badLength

/-- The station field of a SUBMIT: 1 to 63 for REQUEST and POST, 0 for BROADCAST (R58). -/
def txnStationOf (kind : TxnKind) (b : Byte) : Option (Option Addr) :=
  match kind with
  | .request => (addrOf b).map some
  | .post => (addrOf b).map some
  | .broadcast => if b = 0 then some none else none

/-- The reply limit of a SUBMIT: 0 to 48 for REQUEST, 0 otherwise (R58). -/
def replyLimitOf (kind : TxnKind) (b : Byte) : Option (Option Nat) :=
  match kind with
  | .request => if b.toNat ≤ Config.maxCount then some (some b.toNat) else none
  | .post => if b = 0 then some none else none
  | .broadcast => if b = 0 then some none else none

/-- SUBMIT: port and transaction; attempts 0 stand for absent and are filled in at acceptance (R58, R60). The
payload is every byte from byte 8, at most 48 of them (R164). -/
def parseSubmit : List Byte → Parsed (PortId × Txn)
  | p :: t0 :: t1 :: kind :: cls :: station :: attempts :: limit :: payload =>
    if Config.maxCount < payload.length then .error .badLength
    else do
      let p ← parsePort p
      inRange (word t0 t1 != 0)
      let kind ← value (txnKindOf kind)
      let cls ← value (classOf cls)
      let station ← value (txnStationOf kind station)
      inRange (decide (attempts.toNat ≤ 4))
      let limit ← value (replyLimitOf kind limit)
      .ok (p, ⟨word t0 t1, kind, cls, station, attempts.toNat, limit, payload⟩)
  | _ => .error .badLength

/-- CANCEL: a tag that is not 0 (R78). -/
def parseCancel : List Byte → Parsed Word16
  | [t0, t1] => do
    inRange (word t0 t1 != 0)
    .ok (word t0 t1)
  | _ => .error .badLength

/-! ### Taking a frame (R157) -/

/-- The KIND codes of commands (R164). -/
def commandKinds : List Byte := [1, 2, 3, 4, 5, 6, 7, 8, 9, 10] ++ [11, 12, 13, 14, 15, 16, 17, 18, 19, 20]

/-- The frame the command unit may take now: the buffer head, while the response queue has room and no HUB_RESET
drains (R157, R162). -/
def State.frontFrame (s : State) : Option HostFrame :=
  if s.cmd.draining ∨ Config.responsePlaces ≤ s.link.responses.length then none else s.link.inbound.head?

/-- The frame leaves the buffer. -/
def State.popFrame (s : State) : State := { s with link := { s.link with inbound := s.link.inbound.tail } }

/-- The command unit takes the frame at the buffer head if it is one of `mine`; otherwise this command's event
cannot occur now (log 3). -/
def takeFrameIf (mine : HostFrame → Bool) (run : HostFrame → State → State) (s : State) : State :=
  whenRunning s fun s =>
    match s.frontFrame with
    | some f => if mine f then run f s.popFrame else s
    | none => s

/-- A response to a frame: its KIND plus 80h and its SEQ (R154). -/
def respond (f : HostFrame) (r : Result) (data : List Byte) (s : State) : State :=
  postResponse ⟨f.kind + 0x80, f.seq, r, data⟩ s

/-- A frame of KIND `kind` is taken: a failed common check answers its result code alone, and otherwise `run`
makes the command's own checks and its effect (R165). -/
def takeCommand {α : Type} (kind : Byte) (parse : List Byte → Parsed α) (run : HostFrame → α → State → State)
    (s : State) : State :=
  takeFrameIf (fun f => f.kind == kind)
    (fun f s =>
      match parse f.body with
      | .error r => respond f r [] s
      | .ok a => run f a s) s

end Sys2Proof.Machine
end

