-- ==== Sys2Proof/Machine/HubCommands.lean ====
section
/-! DEFINITION. The hub-wide host commands: IDENTIFY, HUB_STATUS, HUB_RESET, SET_DRIFT, and the answer to an unknown
KIND. -/

namespace Sys2Proof.Machine

/-- IDENTIFY (R166): its data is the same in every state of the hub. -/
def execIdentify (s : State) : Host.Outcome State Fault Refusal :=
  .next (takeCommand 0x01 parseEmpty (fun f _ s => respond f .ok Config.identity s) s)

/-- HUB_STATUS (R167): the hub-wide state as it stands when the command is taken. -/
def execHubStatus (s : State) : Host.Outcome State Fault Refusal :=
  .next (takeCommand 0x02 parseEmpty (fun f _ s => respond f .ok (hubStatusData s) s) s)

/-- HUB_RESET steps 1 and 2 (R162): OK is queued, no further frame is taken, and the transmitter takes responses
only. -/
def execHubReset (s : State) : Host.Outcome State Fault Refusal :=
  .next (takeCommand 0x03 parseEmpty
    (fun f _ s => respond f .ok [] { s with cmd := { s.cmd with draining := true } }) s)

/-- The trim unit takes a drift record: both values, the interval, and the interval on its way to every port engine
(R132). -/
def takeDrift (dT dV : Nat) (s : State) : State :=
  let interval := intervalOf dT dV
  (s.setTrim { s.trim with dT := dT, dV := dV, interval := interval }).mapPorts fun _ q =>
    { q with newIntervals := q.newIntervals ++ [interval] }

/-- SET_DRIFT (R132). -/
def execSetDrift (s : State) : Host.Outcome State Fault Refusal :=
  .next (takeCommand 0x04 parseDrift
    (fun f d s => takeDrift d.1 d.2 (respond f .ok (leNat (intervalOf d.1 d.2)) s)) s)

/-- A frame whose KIND names no command: KIND 80h, its own SEQ, its body not examined (R154, R165). -/
def execUnknownCommand (s : State) : Host.Outcome State Fault Refusal :=
  .next (takeFrameIf (fun f => !commandKinds.contains f.kind)
    (fun f s => postResponse ⟨0x80, f.seq, .unknownCommand, []⟩ s) s)

end Sys2Proof.Machine
end

