-- ==== Sys2Proof/Machine/Exchange.lean ====
section
/-! DEFINITION. The port engine's shared operations: the choice of work, the beginning and failing of attempts,
completions, probe results, strikes and quarantine, flush and fault (chapters 2, 4, 5 and 9). -/

namespace Sys2Proof.Machine

/-! ### Choosing and beginning work -/

/-- The work after its next attempt has begun: attempts used increases by one (R62, R64). -/
def Work.begun : Work → Work
  | .txn r => .txn { r with used := r.used + 1 }
  | .probe r => .probe r

/-- Work that waits for the line begins if the line is idle (R64, R67, R142): SENDING, the driver on the frame's
first start bit, which is at the active level (R11), and the late-reply record cleared (R88). -/
def Port.beginIfIdle (q : Port) : Port :=
  match q.inFlight with
  | none => q
  | some f =>
    if (f.phase = .waitingIdle ∨ f.phase = .recovering) ∧ q.lineIdle then
      { q with
        inFlight := some ⟨.sending, f.work.begun⟩
        lateReply := none
        line := { q.line with
          driver := .driving
          sending := f.work.frame
          restCount := 0
          lastSample := some .active } }
    else q

/-- The attempt limit fixed as a transaction is taken from the queue (R43, R62). -/
def Port.attemptLimit (q : Port) (t : Txn) : Nat :=
  match t.kind, t.station with
  | .request, some a =>
    match q.station a with
    | some e => if e.state = .silent then 1 else t.attempts
    | none => t.attempts
  | _, _ => t.attempts

/-- The queue head becomes the in-flight transaction in WAITING_IDLE (R33, R62); an active sweep's flag reads
TRANSACTION. -/
def Port.takeHead (q : Port) : Port :=
  match q.queue with
  | [] => q
  | t :: rest =>
    Port.beginIfIdle { q with
      queue := rest
      inFlight := some ⟨.waitingIdle, .txn ⟨t, q.attemptLimit t, 0, none, none⟩⟩
      sweep := q.sweep.map fun w => { w with last := .transaction } }

/-- The sweep's next probe becomes the in-flight work in WAITING_IDLE (R33 step 3, R142). -/
def Port.takeProbe (q : Port) (w : Sweep) : Port :=
  Port.beginIfIdle { q with
    inFlight := some ⟨.waitingIdle, .probe ⟨w.station, w.range, BitVec.ofNat 5 w.next⟩⟩
    sweep := some { w with last := .probe } }

/-- The port opens its window: the claim becomes WINDOW and window open is sent (R34, R118). -/
def Port.openWindow (q : Port) : Port :=
  { q with claim := .window, toTrim := q.toTrim ++ [.windowOpen q.claimNumber] }

/-- The work choice of R33, made only while the port is READY or DEGRADED with nothing in flight and no window
open. -/
def Port.nextWork (q : Port) : Port :=
  if q.state.inService ∧ q.inFlight = none ∧ q.claim ≠ .window then
    if q.claim = .granted then q.openWindow
    else
      match q.sweep with
      | some w => if w.last = .probe ∧ q.queue ≠ [] then q.takeHead else q.takeProbe w
      | none => q.takeHead
  else q

/-! ### Completion (R75 to R77) -/

/-- A transaction's record passes into TXN_DONE, its tag leaves the live tag set, and the completion is handed to
the station table, in this order (R75 steps 2 to 4). -/
def finish (p : PortId) (t : Txn) (o : TxnOutcome) (used : Nat) (reply : Option (List Byte)) (s : State) : State :=
  tableCompletion p t o (dropTag t.tag (postNotice (.txnDone t.tag p o used reply) s))

/-- The in-flight transaction completes, without the decision that follows. -/
def completeRun (p : PortId) (r : TxnRun) (o : TxnOutcome) (s : State) : State :=
  finish p r.txn o r.used r.reply (s.modPort p Port.endExchange)

/-- The in-flight transaction completes and the port decides its next work (R75). -/
def completeAndDecide (p : PortId) (r : TxnRun) (o : TxnOutcome) (s : State) : State :=
  (completeRun p r o s).modPort p Port.nextWork

/-- The outcome named by a last failure (R63, R76). -/
def FailCause.outcome : FailCause → TxnOutcome
  | .noReply => .noReply
  | .badReply => .badReply
  | .collided => .collided

/-- The phase a failed attempt leaves while attempts remain (R63). -/
def FailCause.retryPhase : FailCause → Phase
  | .collided => .recovering
  | .noReply => .waitingIdle
  | .badReply => .waitingIdle

/-- An attempt fails (R63): the timers stop, the cause is recorded and counted, and the transaction retries or
completes with its last failure. On an idle line the retry begins in the same step (R64). -/
def failAttempt (p : PortId) (r : TxnRun) (cause : FailCause) (s : State) : State :=
  let r := { r with lastFailure := some cause }
  let s := s.modPort p fun q =>
    { q with counters := { q.counters with attemptsFailed := satInc q.counters.attemptsFailed },
             line := q.line.endExchange }
  if r.used < r.limit then
    s.modPort p fun q => Port.beginIfIdle { q with inFlight := some ⟨cause.retryPhase, .txn r⟩ }
  else completeAndDecide p { r with reply := none } cause.outcome s

/-! ### Sweeps (R145, R148 to R150) -/

/-- The longest run of passing codes, the lowest start among equals (R148). `run` is the length of the passing run
that ends before `code`. -/
def longestRun (map : List PassEntry) (code run : Nat) (best : SweepWindow) : SweepWindow :=
  match map with
  | [] => best
  | e :: rest =>
    if e = .pass then
      longestRun rest (code + 1) (run + 1) (if best.width < run + 1 then ⟨code - run, run + 1⟩ else best)
    else longestRun rest (code + 1) 0 best

/-- The run a complete map yields; width 0 when no code passed. -/
def chooseRun (map : List PassEntry) : SweepWindow := longestRun map 0 0 ⟨0, 0⟩

/-- The code a run of length 3 or more chooses (R148). -/
def SweepWindow.middle (w : SweepWindow) : Nat := w.start + (w.width - 1) / 2

/-- The sweep record ends with its SWEEP_DONE (R148 to R150). -/
def endSweep (p : PortId) (w : Sweep) (how : SweepEnd) (s : State) : State :=
  postNotice (.sweepDone p w.station w.range how w.map) (s.modPort p fun q => { q with sweep := none })

/-- With every code tried the sweep chooses: the result goes to the table first, then SWEEP_DONE is queued
(R148). -/
def chooseThreshold (p : PortId) (w : Sweep) (s : State) : State :=
  let run := chooseRun w.map
  if Config.minRun ≤ run.width then
    endSweep p w (.done run.middle run.start run.width)
      (s.modPort p fun q => q.setSwept w.station ⟨w.range, BitVec.ofNat 5 run.middle⟩ run)
  else endSweep p w (.noWindow (if run.width = 0 then none else some run)) s

/-- A sweep is abandoned (R149); nothing happens where none is active. -/
def abandonSweep (p : PortId) (cause : SweepCause) (s : State) : State :=
  match (s.port p).sweep with
  | none => s
  | some w => endSweep p w (.abandoned cause) s

/-- A probe's result in the sweep record (R145). -/
def Sweep.record (w : Sweep) (code : ThCode) (pass : Bool) : Sweep :=
  { w with map := w.map.set code.toNat (if pass then .pass else .fail), next := w.next + 1 }

/-- With every code tried the sweep makes its choice at once; otherwise it goes on (R145). -/
def settleSweep (p : PortId) (s : State) : State :=
  match (s.port p).sweep with
  | some w => if w.next = Config.sweepCodes then chooseThreshold p w s else s
  | none => s

/-- The probe's result recorded, and the probe no longer in flight (R145). -/
def Port.recordProbe (q : Port) (r : ProbeRun) (pass : Bool) : Port :=
  Port.endExchange { q with sweep := q.sweep.map fun (w : Sweep) => w.record r.code pass }

/-- A probe ends with a result (R145): it is recorded, the probe ceases to be in flight, and the sweep goes on or
chooses; then the port decides. -/
def endProbe (p : PortId) (r : ProbeRun) (pass : Bool) (s : State) : State :=
  (settleSweep p (s.modPort p fun q => q.recordProbe r pass)).modPort p Port.nextWork

/-- The exchange in flight fails: an attempt with the cause, a probe with result FAIL (R63, R89, R143). -/
def failExchange (p : PortId) (cause : FailCause) (s : State) : State :=
  match (s.port p).inFlight with
  | none => s
  | some f =>
    match f.work with
    | .txn r => failAttempt p r cause s
    | .probe r => endProbe p r false s

/-! ### Strikes and quarantine (R44, R45) -/

/-- Work in flight to a station (R45 step 1). -/
def Work.names (w : Work) (a : Addr) : Bool :=
  match w with
  | .txn r => r.txn.station == some a
  | .probe r => r.station == a

/-- Queued transactions complete one by one, in queue order, with attempts used 0 and no reply (R23, R45). -/
def finishAll (p : PortId) (o : TxnOutcome) (ts : List Txn) (s : State) : State :=
  ts.foldl (fun s t => finish p t o 0 none s) s

/-- The in-flight work ends without the decision: a transaction completes with the outcome, a probe has no
result (R23, R45). -/
def endInFlight (p : PortId) (o : TxnOutcome) (s : State) : State :=
  match (s.port p).inFlight with
  | none => s
  | some f =>
    match f.work with
    | .txn r => completeRun p { r with reply := none } o s
    | .probe _ => s.modPort p Port.endExchange

/-- In-flight work that names the station (R45 step 1). -/
def Port.runsFor (q : Port) (a : Addr) : Bool :=
  match q.inFlight with
  | some f => f.work.names a
  | none => false

/-- Step 1 of R45: in-flight work to the station ends. -/
def quarantineInFlight (p : PortId) (a : Addr) (s : State) : State :=
  if (s.port p).runsFor a then endInFlight p .stationQuarantined s else s

/-- Step 2 of R45: the queued transactions that name the station complete, and the others close up. -/
def quarantineQueue (p : PortId) (a : Addr) (s : State) : State :=
  finishAll p .stationQuarantined ((s.port p).queue.filter fun t => t.station == some a)
    (s.modPort p fun q => { q with queue := q.queue.filter fun t => t.station != some a })

/-- Step 3 of R45: a sweep on the station is abandoned. -/
def quarantineSweep (p : PortId) (a : Addr) (s : State) : State :=
  match (s.port p).sweep with
  | some w => if w.station = a then abandonSweep p .stationQuarantined s else s
  | none => s

/-- The quarantine entry of R45, and then, if in-flight work was ended, the next-work decision (log 17). -/
def quarantineEntry (p : PortId) (a : Addr) (s : State) : State :=
  let t := quarantineSweep p a (quarantineQueue p a (quarantineInFlight p a s))
  if (s.port p).runsFor a then t.modPort p Port.nextWork else t

/-- A strike report (R44). -/
def strike (p : PortId) (a : Addr) (s : State) : State :=
  match (s.port p).station a with
  | none => s.modPort p Port.countStray
  | some e =>
    if e.strikes = 0 then s.modPort p fun q => q.modStation a fun e => { e with strikes := 1 }
    else if e.strikes = 1 then
      quarantineEntry p a
        (postNotice (.stationState p a .quarantined .strike)
          (s.modPort p fun q => q.modStation a fun e => { e with strikes := 2, state := .quarantined }))
    else s

/-! ### Flush and fault (R23, R24, R28) -/

/-- The three causes of a flush. -/
inductive FlushCause where
  | disabled
  | reset
  | faulted
  deriving DecidableEq, Repr

/-- The flush outcome (R23). -/
def FlushCause.outcome : FlushCause → TxnOutcome
  | .disabled => .portDisabled
  | .reset => .portReset
  | .faulted => .portFaulted

/-- The cause of a sweep abandoned by a flush (R149). -/
def FlushCause.sweepCause : FlushCause → SweepCause
  | .disabled => .portDisabled
  | .reset => .portReset
  | .faulted => .portFaulted

/-- A flush (R23): in-flight work, then the queue in order, then the sweep. The late-reply record is cleared
(R88). -/
def flush (p : PortId) (c : FlushCause) (s : State) : State :=
  let s := endInFlight p c.outcome s
  let ts := (s.port p).queue
  let s := finishAll p c.outcome ts (s.modPort p fun q => { q with queue := [], lateReply := none })
  abandonSweep p c.sweepCause s

/-- Entry to FAULTED (R28): PORT_STATE, flush, withdrawal, driver disabled and receiver off. The flush's notices are
queued whole before the CAL_DONE that the withdrawal may bring (log 25, DESIGN CHOICE). -/
def enterFault (p : PortId) (cause : FaultCause) (tc : TransCause) (s : State) : State :=
  (flush p .faulted (moveTo p (.faulted cause) tc s)).modPort p fun q =>
    { q.withdraw with line := q.withdraw.line.switchOff .disabled }

end Sys2Proof.Machine
end

