-- ==== Sys2Proof/Machine/LineEvents.lean ====
section
/-! DEFINITION. The drop line's events: characters and their assembly into frames, heads and frame ends as the port
engine judges them, the line's timers, sending and collisions, and samples (R3 to R14, R62 to R74, R83 to R96,
R139 to R144). -/

namespace Sys2Proof.Machine

/-- An event of a port whose receiver runs. -/
def whenReceiving (p : PortId) (s : State) (f : State → State) : State :=
  whenRunning s fun s => if (s.port p).line.receiver = .off then s else f s

/-! ### Start bits (R3, R12 to R14, R68, R143) -/

/-- The receiver hunts and the port is not sending: a start bit can be accepted (R3, R4). -/
def Port.hunting (q : Port) : Bool :=
  decide (q.line.receiver = .hunting) && decide (q.line.driver ≠ .driving)

/-- The reply timer is held at its value while a character is received (R14). -/
def ReplyTimer.hold (t : ReplyTimer) (atLimit : Bool) : ReplyTimer :=
  match t with
  | .running n => .held n atLimit
  | .stopped => .stopped
  | .held n l => .held n l

/-- The line interface's part of an accepted start bit: its samples are activity, the gap timer stops, the reply timer
is held, and the receiver is inside a character (R3, R12, R14, log 9). -/
def Port.takeStart (q : Port) (atLimit : Bool) : Port :=
  let q := q.sampleActive
  { q with line := { q.line with
      receiver := .inCharacter, gapRunning := false, reply := q.line.reply.hold atLimit } }

/-- A start bit is accepted: while the turnaround timer runs it is a start in turnaround, which fails the attempt
BAD_REPLY or the probe (R13, R68, R143). -/
def startBit (p : PortId) (atLimit : Bool) (s : State) : State :=
  let inTurnaround := (s.port p).line.turnaround.isSome
  let s := s.modPort p fun q => q.takeStart atLimit
  if inTurnaround then failExchange p .badReply s else s

/-- START_BIT_ACCEPTED (R3). -/
def execStartBitAccepted (p : PortId) (atLimit : Bool) (s : State) : Host.Outcome State Fault Refusal :=
  .next (whenReceiving p s fun s => if (s.port p).hunting then startBit p atLimit s else s)

/-- START_IN_TURNAROUND (R13, R68). -/
def execStartInTurnaround (p : PortId) (s : State) : Host.Outcome State Fault Refusal :=
  .next (whenReceiving p s fun s =>
    if (s.port p).hunting && (s.port p).line.turnaround.isSome then startBit p false s else s)

/-! ### Heads, counts and frame ends at the port engine -/

/-- The station that in-flight work addresses. -/
def Work.target : Work → Option Addr
  | .txn r => r.txn.station
  | .probe r => some r.station

/-- A head outside any reply window, classified by R90. The station table answers for an absent address, which then
counts as a stray frame (R91, R92). -/
def outsideHead (p : PortId) (kind : FrameKind) (addr : Addr) (s : State) : State :=
  if kind ≠ .reply then s.modPort p Port.countStray
  else
    match (s.port p).lateReply with
    | none => s.modPort p Port.countStray
    | some a => if a = addr then s.modPort p fun q => q.lateReport addr else strike p addr s

/-- A head in AWAITING (R69, R70, R89): the reply head, a wrong responder, or a head of a kind stations do not
send. -/
def windowHead (p : PortId) (w : Work) (kind : FrameKind) (addr : Addr) (s : State) : State :=
  if kind ≠ .reply then failExchange p .badReply (s.modPort p Port.countStray)
  else if w.target = some addr then s.modPort p fun q => { q with inFlight := some ⟨.receiving, w⟩ }
  else failExchange p .badReply (strike p addr s)

/-- The port engine takes a head (R69, R70, R89, R90). -/
def headTaken (p : PortId) (kind : FrameKind) (addr : Addr) (s : State) : State :=
  match (s.port p).inFlight with
  | none => outsideHead p kind addr s
  | some f => if f.phase = .awaiting then windowHead p f.work kind addr s else outsideHead p kind addr s

/-- The port engine takes a COUNT: over the reply limit it fails a transaction's attempt (R72); a probe takes any
(R143). -/
def countTaken (p : PortId) (count : Byte) (s : State) : State :=
  match (s.port p).inFlight with
  | none => s
  | some f =>
    match f.work with
    | .txn r =>
      if f.phase = .receiving ∧ r.txn.replyLimit.getD 0 < count.toNat then failAttempt p r .badReply s else s
    | .probe _ => s

/-- A frame whole and clean: COMPLETE, check GOOD, no framing error (R73, R144). -/
def FrameRec.clean (r : FrameRec) (ending : Ending) (good : Bool) : Bool :=
  decide (ending = .complete) && good && !r.framing

/-- A clean echo of the probe's sixteen bytes (R144). -/
def FrameRec.echoes (r : FrameRec) (code : ThCode) : Bool :=
  decide (r.count = some 16) && decide (r.payload = probePattern code)

/-- The noise report of a REPLY frame (R94). -/
def reportNoise (p : PortId) (r : FrameRec) (s : State) : State :=
  if r.kind = .reply then s.modPort p fun q => q.noiseReport r.addr r.noisy else s

/-- The judgement of the reply or of the echo, in RECEIVING (R73, R74, R144). -/
def judgeFrame (p : PortId) (ending : Ending) (good : Bool) (r : FrameRec) (s : State) : State :=
  match (s.port p).inFlight with
  | none => s
  | some f =>
    if f.phase = .receiving then
      match f.work with
      | .txn run =>
        if r.clean ending good then completeAndDecide p { run with reply := some r.payload } .done s
        else failAttempt p run .badReply s
      | .probe run => endProbe p run (r.clean ending good && r.echoes run.code) s
    else s

/-- The port engine takes a frame end: the noise report first, then the judgement. -/
def frameEnd (p : PortId) (ending : Ending) (good : Bool) (r : FrameRec) (s : State) : State :=
  judgeFrame p ending good r (reportNoise p r s)

/-! ### The frame assembler (R8 to R10) -/

/-- The assembler's state replaced. The gap timer starts at the end of the stop bit unless the state is HUNT
(R12). -/
def Port.setAssembler (q : Port) (a : Assembler) : Port :=
  { q with line := { q.line with assembler := a, gapRunning := a != .hunt } }

/-- A frame record opened by a head (R8). -/
def FrameRec.opened (c : RxChar) : FrameRec :=
  { addr := addrOfHead c.data, kind := kindOfHead c.data, count := none, payload := [], checkLo := none,
    checkHi := none, framing := c.framing, noisy := if c.noisy then 1 else 0 }

/-- An unmarked character's flags added to the record (R9). -/
def FrameRec.note (r : FrameRec) (c : RxChar) : FrameRec :=
  { r with framing := r.framing || c.framing, noisy := if c.noisy then r.noisy + 1 else r.noisy }

/-- The check over the record's head data byte, COUNT and payload equals the received check (R7, R9). -/
def FrameRec.checkGood (r : FrameRec) : Bool :=
  match r.count, r.checkLo, r.checkHi with
  | some n, some lo, some hi => checkOf (headByte r.kind r.addr :: n :: r.payload) == word lo hi
  | _, _, _ => false

/-- A head opens a frame, is reported, and COUNT is awaited (R8). -/
def openFrame (p : PortId) (c : RxChar) (s : State) : State :=
  headTaken p (kindOfHead c.data) (addrOfHead c.data)
    (s.modPort p fun q => q.setAssembler (.assembling .count (FrameRec.opened c)))

/-- The frame being assembled ends and the assembler goes to HUNT (R9, R10). -/
def endFrame (p : PortId) (ending : Ending) (r : FrameRec) (s : State) : State :=
  frameEnd p ending (decide (ending = .complete) && r.checkGood) r (s.modPort p fun q => q.setAssembler .hunt)

/-- An unmarked character, its flags already noted in `r` (R9, R10 OVERLENGTH). -/
def addCharacter (p : PortId) (waiting : Awaited) (r : FrameRec) (b : Byte) (s : State) : State :=
  let await (w : Awaited) (r : FrameRec) : State := s.modPort p fun q => q.setAssembler (.assembling w r)
  match waiting with
  | .count =>
    let r := { r with count := some b }
    if b.toNat ≤ Config.maxCount then countTaken p b (await (if b = 0 then .checkLow else .payload) r)
    else endFrame p .overlength r s
  | .payload =>
    let r := { r with payload := r.payload ++ [b] }
    await (if r.payload.length = (r.count.getD 0).toNat then .checkLow else .payload) r
  | .checkLow => await .checkHigh { r with checkLo := some b }
  | .checkHigh => endFrame p .complete { r with checkHi := some b } s

/-- The assembler takes a character (R8, R9, R10 INTERRUPTED). -/
def assemble (p : PortId) (c : RxChar) (s : State) : State :=
  match (s.port p).line.assembler with
  | .hunt => if c.mark then openFrame p c s else s
  | .assembling w r =>
    if c.mark then openFrame p c (endFrame p .interrupted r s) else addCharacter p w (r.note c) c.data s

/-! ### The reply timer -/

/-- The reply timer expires (R14, R71, R88): the late-reply record holds the station, and the exchange fails
NO_REPLY. -/
def replyTimeout (p : PortId) (s : State) : State :=
  match (s.port p).inFlight with
  | none => s
  | some f => failExchange p .noReply (s.modPort p fun q => { q with lateReply := f.work.target })

/-- The held timer at the end of its character: stopped by a head, and otherwise going on from its held value
(R14). -/
def ReplyTimer.release (t : ReplyTimer) (mark : Bool) : ReplyTimer :=
  match t with
  | .held n _ => if mark then .stopped else .running n
  | .stopped => .stopped
  | .running n => .running n

/-- A held timer whose value had already reached the timeout (R14). -/
def ReplyTimer.overdue : ReplyTimer → Bool
  | .held _ l => l
  | .stopped => false
  | .running _ => false

/-! ### Characters -/

/-- The receiver at the end of a stop bit (R4): hunting, or, after a framing error, waiting for a rest-level
sample. -/
def Port.endCharacter (q : Port) (c : RxChar) : Port :=
  let q := if c.framing then q.sampleActive else { q with line := { q.line with lastSample := some .rest } }
  { q with line := { q.line with
      receiver := if c.framing then .waitRest else .hunting
      reply := q.line.reply.release c.mark } }

/-- A character is handed on: the assembler takes it, and an unmarked one releases an overdue reply timer to
expire. -/
def takeCharacter (p : PortId) (c : RxChar) (s : State) : State :=
  let overdue := (s.port p).line.reply.overdue && !c.mark
  let s := assemble p c (s.modPort p fun q => q.endCharacter c)
  if overdue then replyTimeout p s else s

/-- CHARACTER_RECEIVED (R4): a character whose start bit was not given by a command of its own implies it (log 9). -/
def execCharacterReceived (p : PortId) (c : RxChar) (s : State) : Host.Outcome State Fault Refusal :=
  .next (whenReceiving p s fun s =>
    if (s.port p).hunting then takeCharacter p c (startBit p false s)
    else if (s.port p).line.receiver = .inCharacter then takeCharacter p c s
    else s)

/-- CHARACTER_GAP_EXPIRY (R12): the frame being assembled ends TRUNCATED. -/
def execCharacterGapExpiry (p : PortId) (s : State) : Host.Outcome State Fault Refusal :=
  .next (whenReceiving p s fun s =>
    match (s.port p).line.assembler with
    | .hunt => s
    | .assembling _ r => if (s.port p).line.gapRunning then endFrame p .truncated r s else s)

/-! ### The idle line and sending -/

/-- LINE_BECOMES_IDLE (R11): waiting work begins (R64, R67, R142). -/
def execLineBecomesIdle (p : PortId) (s : State) : Host.Outcome State Fault Refusal :=
  .next (whenReceiving p s fun s =>
    if (s.port p).line.receiver ≠ .inCharacter ∧ (s.port p).line.driver ≠ .driving then
      s.modPort p fun q =>
        let q := q.sampleRest
        Port.beginIfIdle { q with line := { q.line with restCount := Config.idleBits } }
    else s)

/-- The port's frame is on its line. -/
def Port.isSending (q : Port) : Bool :=
  decide (q.phase = some .sending) && decide (q.line.driver = .driving)

/-- The driver released at the end of the last stop bit, which stands at rest (R2, R65). -/
def LineIf.sent (l : LineIf) : LineIf := { l with driver := .released, sending := [], lastSample := some .rest }

/-- A frame sent whole: frames sent and collision run (R36, R37, R65, R142). -/
def Port.countSent (q : Port) : Port :=
  { q with
    counters := { q.counters with framesSent := satInc q.counters.framesSent }
    collisionRun := 0
    line := q.line.sent }

/-- The reply window opens: TURNAROUND, its timer, and the threshold it is received against (R13, R65, R139). -/
def Port.openReply (q : Port) (w : Work) (th : Threshold) : Port :=
  { q with
    inFlight := some ⟨.turnaround, w⟩
    line := { q.line with turnaround := some q.settings.gap.toNat, threshold := th } }

/-- The addressed station's threshold record (R51). A transaction in flight has its station in the table (R49);
log 23 gives the value for an absent one. -/
def Port.stationThreshold (q : Port) (a : Option Addr) : Threshold :=
  match a.bind q.station with
  | some e => e.threshold
  | none => .portDefault

/-- What follows a frame sent whole (R65, R142). -/
def frameSent (p : PortId) (w : Work) (s : State) : State :=
  let s := s.modPort p Port.countSent
  match w with
  | .txn r =>
    if r.txn.kind = .request then s.modPort p fun q => q.openReply w (q.stationThreshold r.txn.station)
    else completeAndDecide p { r with reply := none } .done s
  | .probe r => s.modPort p fun q => q.openReply w ⟨r.range, r.code⟩

/-- FRAME_SENT (R65). -/
def execFrameSent (p : PortId) (s : State) : Host.Outcome State Fault Refusal :=
  .next (whenReceiving p s fun s =>
    match (s.port p).inFlight with
    | none => s
    | some f => if (s.port p).isSending then frameSent p f.work s else s)

/-- A collision counted, the driver released and the receiver waiting for rest (R66, R85, R86). -/
def Port.countCollision (q : Port) : Port :=
  { q with
    counters := { q.counters with collisions := satInc q.counters.collisions }
    collisionRun := min Config.collisionLimit (q.collisionRun + 1)
    line := { q.line with driver := .released, sending := [], receiver := .waitRest } }

/-- A collision (R66, R86, R87): the eighth in a row faults the port; any other fails the attempt or the probe. -/
def collide (p : PortId) (s : State) : State :=
  let s := s.modPort p Port.countCollision
  if (s.port p).collisionRun = Config.collisionLimit then enterFault p .contention .contention s
  else failExchange p .collided s

/-- COLLISION (R66). -/
def execCollision (p : PortId) (s : State) : Host.Outcome State Fault Refusal :=
  .next (whenReceiving p s fun s => if (s.port p).isSending then collide p s else s)

/-! ### Timers -/

/-- The reply window's second part: AWAITING, with the reply timer at the port's timeout (R14, R68). -/
def Port.awaitReply (q : Port) : Port :=
  { q with
    inFlight := q.inFlight.map fun f => { f with phase := .awaiting }
    line := { q.line with turnaround := none, reply := .running q.settings.timeout.toNat } }

/-- TURNAROUND_EXPIRY (R68, R143). -/
def execTurnaroundExpiry (p : PortId) (s : State) : Host.Outcome State Fault Refusal :=
  .next (whenReceiving p s fun s =>
    if (s.port p).line.turnaround.isSome then s.modPort p Port.awaitReply else s)

/-- The reply timer runs, held by no start bit. -/
def ReplyTimer.isRunning : ReplyTimer → Bool
  | .running _ => true
  | .stopped => false
  | .held _ _ => false

/-- A command that brings a station's start bit on port `p`'s line, by itself or with its character (log 9). -/
def bringsStart (p : PortId) : Instr → Bool
  | .startBitAccepted p' _ => p' == p
  | .characterReceived p' _ => p' == p
  | _ => false

/-- A command by which the sender shows whether a start bit or the hub's own frame comes next on port `p`'s line: a
start bit, an event that only the hub's frame or a line that has become idle can bring, an end of the port's work, or
one before which time passes (log 24). -/
def tellsNext (p : PortId) : Instr → Bool
  | .startBitAccepted p' _ => p' == p
  | .characterReceived p' _ => p' == p
  | .frameSent p' => p' == p
  | .collision p' => p' == p
  | .lineBecomesIdle p' => p' == p
  | .startInTurnaround p' => p' == p
  | .turnaroundExpiry p' => p' == p
  | .replyTimeout p' => p' == p
  | .stuckLineExpiry p' => p' == p
  | .portDisable => true
  | .portReset => true
  | .quickCalExpiry _ => true
  | .powerOn => true
  | .resetNAssert => true
  | .resetNRelease _ => true
  | .hubResetCarriedOut _ => true
  | _ => false

/-- Of the commands that wait, a start bit on port `p`'s line is the first that tells (log 24). -/
def startFollows (p : PortId) (queue : List Instr) : Bool := (queue.find? (tellsNext p)).any (bringsStart p)

/-- A station's start bit that is taken after a reply timeout and before the port engine's decision to send makes the
line not idle with its first active sample, so that the work waits and the late-reply record stays (R11, R64, R88,
section 5.7). The order of the waiting commands says that it is (log 24). -/
def yieldToStart (p : PortId) (s : State) : State :=
  if startFollows p s.pending then s.modPort p Port.sampleActive else s

/-- REPLY_TIMEOUT (R71, R88). -/
def execReplyTimeout (p : PortId) (s : State) : Host.Outcome State Fault Refusal :=
  .next (whenReceiving p s fun s =>
    if (s.port p).line.reply.isRunning then replyTimeout p (yieldToStart p s) else s)

/-- STUCK_LINE_EXPIRY (R96). -/
def execStuckLineExpiry (p : PortId) (s : State) : Host.Outcome State Fault Refusal :=
  .next (whenReceiving p s fun s =>
    if (s.port p).line.stuck = .counting then enterFault p .stuck .stuck s else s)

/-! ### Samples -/

/-- ACTIVE_SAMPLE (R83). -/
def execActiveSample (p : PortId) (s : State) : Host.Outcome State Fault Refusal :=
  .next (whenReceiving p s fun s => s.modPort p Port.sampleActive)

/-- REST_LEVEL_SAMPLE (R4, R85). -/
def execRestLevelSample (p : PortId) (s : State) : Host.Outcome State Fault Refusal :=
  .next (whenReceiving p s fun s => s.modPort p Port.sampleRest)

end Sys2Proof.Machine
end

