-- ==== Sys2Proof/Machine/LinkEvents.lean ====
section
/-! DEFINITION. The host link's events: HOST_BYTE_RECEIVED, CHAR_FRAMING, BREAK, HOST_GAP_TIMEOUT, TX_FRAME_END and
RXD_RETURNS_HIGH (R153 to R158). -/

namespace Sys2Proof.Machine

/-- What a byte makes of the framer: a frame still being assembled (or HUNT), a good frame, or an abandoned one. -/
inductive Framed where
  | going (f : Framer)
  | good (f : HostFrame)
  | abandoned (cause : LinkCause)
  deriving DecidableEq, Repr

/-- The state after SEQ or a body byte: BODY while bytes remain, then CHECK_LOW (R155). LEN counts KIND and SEQ. -/
def Framer.afterBody (len kind seq : Byte) (taken : List Byte) : Framer :=
  if taken.length + 2 < len.toNat then .body len kind seq taken else .checkLow len kind seq taken

/-- The framer takes a byte (R155). -/
def Framer.take (f : Framer) (b : Byte) : Framed :=
  match f with
  | .hunt => .going (if b = Config.sync then .length else .hunt)
  | .length => if 2 ≤ b.toNat ∧ b.toNat ≤ 62 then .going (.kind b) else .abandoned .length
  | .kind len => .going (.sequence len b)
  | .sequence len k => .going (Framer.afterBody len k b [])
  | .body len k seq taken => .going (Framer.afterBody len k seq (taken ++ [b]))
  | .checkLow len k seq taken => .going (.checkHigh len k seq taken b)
  | .checkHigh len k seq taken low =>
    if checkOf (len :: k :: seq :: taken) = word low b then .good ⟨k, seq, taken⟩ else .abandoned .check

/-- The framer stands in `f`; its gap timer runs from the end of a byte in LENGTH to CHECK_HIGH (R155). -/
def Link.setFramer (l : Link) (f : Framer) : Link := { l with framer := f, gapRunning := f != .hunt }

/-- The framer's state replaced. -/
def setFramer (f : Framer) (s : State) : State := { s with link := s.link.setFramer f }

/-- The frame being assembled is abandoned, or a break or overflow is reported: HUNT, with one LINK_ERROR (R155). -/
def abandonFrame (cause : LinkCause) (s : State) : State := postNotice (.linkError cause) (setFramer .hunt s)

/-- A good frame enters the inbound buffer, or is discarded with LINK_ERROR OVERFLOW; HUNT either way (R156). -/
def storeFrame (f : HostFrame) (s : State) : State :=
  if s.link.inbound.length < Config.inboundPlaces then
    setFramer .hunt { s with link := { s.link with inbound := s.link.inbound ++ [f] } }
  else abandonFrame .overflow s

/-- The framer takes a byte and acts on what it makes of it. -/
def takeByte (b : Byte) (s : State) : State :=
  match s.link.framer.take b with
  | .going f => setFramer f s
  | .good f => storeFrame f s
  | .abandoned c => abandonFrame c s

/-- An event of a receiver that hunts for start bits: a receiver that ignores RXD or waits for it to be high forms no
byte and reports nothing (R153, R161). -/
def whenHunting (s : State) (f : State → State) : State :=
  whenRunning s fun s => if s.link.receiver = .hunting then f s else s

/-- HOST_BYTE_RECEIVED (R155, R156). -/
def execHostByteReceived (b : Byte) (s : State) : Host.Outcome State Fault Refusal :=
  .next (whenHunting s (takeByte b))

/-- CHAR_FRAMING (R153, R155): HUNT discards the report without any notice. -/
def execCharFraming (s : State) : Host.Outcome State Fault Refusal :=
  .next (whenHunting s fun s => if s.link.framer = .hunt then s else abandonFrame .charFraming s)

/-- BREAK (R153, R155): HUNT from any state with one LINK_ERROR; the receiver waits for RXD to return high. -/
def execLinkBreak (s : State) : Host.Outcome State Fault Refusal :=
  .next (whenHunting s fun s =>
    abandonFrame .brk { s with link := { s.link with receiver := .waitHigh } })

/-- HOST_GAP_TIMEOUT (R155). -/
def execHostGapTimeout (s : State) : Host.Outcome State Fault Refusal :=
  .next (whenRunning s fun s =>
    if s.link.gapRunning = true ∧ s.link.framer ≠ .hunt then abandonFrame .gap s else s)

/-- TX_FRAME_END (R158): IDLE, and the next frame at once if one waits. While HUB_RESET drains only responses are
taken (R162). -/
def execTxFrameEnd (s : State) : Host.Outcome State Fault Refusal :=
  .next (whenRunning s fun s =>
    if s.link.tx = .idle then s
    else { s with link := { s.link with tx := .idle }.transmit s.cmd.draining })

/-- RXD_RETURNS_HIGH (R153, R155): a receiver that waited for it hunts. -/
def execRxdReturnsHigh (s : State) : Host.Outcome State Fault Refusal :=
  .next (whenRunning s fun s =>
    if s.link.receiver = .waitHigh then { s with link := { s.link with receiver := .hunting } } else s)

end Sys2Proof.Machine
end

