-- ==== Sys2Proof/Machine/PortCommands.lean ====
section
/-! DEFINITION. The host commands on a port: PORT_ENABLE, PORT_DISABLE, PORT_RESET, PORT_STATUS, SET_TERMINATION,
DOZE in its two directions, CALIBRATE. -/

namespace Sys2Proof.Machine

/-- An OFF port is enabled (R21): settings, counters and collision run, TRIMMING (FULL) with its receiver on, and a
FULL AUTO request. -/
def enablePort (p : PortId) (set : Settings) (s : State) : State :=
  let s := s.modPort p fun q =>
    { q with settings := set, counters := .zero, collisionRun := 0, line := q.line.switchOn }
  (moveTo p (.trimming .full) .enabled s).modPort p (Port.handOver p .full .auto)

/-- PORT_ENABLE (R21). -/
def execPortEnable (s : State) : Host.Outcome State Fault Refusal :=
  .next (takeCommand 0x05 parseEnable
    (fun f a s =>
      if (s.port a.1).state = .off then enablePort a.1 a.2 (respond f .ok [] s) else respond f .portState [] s) s)

/-- A port is disabled (R22): OFF, flush, withdrawal, receiver off and driver released. The flush's notices are queued
whole before the CAL_DONE that the withdrawal may bring (log 25, DESIGN CHOICE). -/
def disablePort (p : PortId) (s : State) : State :=
  (flush p .disabled (moveTo p .off .disabled s)).modPort p fun q =>
    { q.withdraw with line := q.withdraw.line.switchOff .released }

/-- PORT_DISABLE (R22): OFF is answered OK with no effect. -/
def execPortDisable (s : State) : Host.Outcome State Fault Refusal :=
  .next (takeCommand 0x06 parsePortOnly
    (fun f p s =>
      if (s.port p).state = .off then respond f .ok [] s else disablePort p (respond f .ok [] s)) s)

/-- A port is reset (R25): TRIMMING (FULL), flush, collision run 0, withdrawal, a new FULL AUTO request. A receiver
that was off is switched on; one that was on carries on undisturbed (R17). The flush's notices are queued whole before
the CAL_DONE that the withdrawal may bring (log 25, DESIGN CHOICE). -/
def resetPort (p : PortId) (s : State) : State :=
  let wasOn := (s.port p).state.receives
  (flush p .reset (moveTo p (.trimming .full) .reset s)).modPort p fun q =>
    Port.handOver p .full .auto
      { q.withdraw with
        collisionRun := 0
        line := if wasOn then q.withdraw.line else q.withdraw.line.switchOn }

/-- PORT_RESET (R25). -/
def execPortReset (s : State) : Host.Outcome State Fault Refusal :=
  .next (takeCommand 0x07 parsePortOnly
    (fun f p s =>
      if (s.port p).state = .off then respond f .portState [] s else resetPort p (respond f .ok [] s)) s)

/-- PORT_STATUS (R168): the port's state as it stands when the command is taken. -/
def execPortStatus (s : State) : Host.Outcome State Fault Refusal :=
  .next (takeCommand 0x08 parsePortOnly (fun f p s => respond f .ok (portStatusData s p) s) s)

/-- SET_TERMINATION (R100): the whole profile is replaced and the selection re-evaluated at once. -/
def execSetTermination (s : State) : Host.Outcome State Fault Refusal :=
  .next (takeCommand 0x09 parseProfile
    (fun f a s => respond f .ok [] (s.modPort a.1 fun q => { q with profile := a.2 })) s)

/-- Idle, for DOZE: nothing queued, in flight or swept, and the claim NONE (R30). -/
def Port.dozeIdle (q : Port) : Bool :=
  q.queue.isEmpty && q.inFlight.isNone && q.sweep.isNone && decide (q.claim = .none)

/-- A port dozes (R30): the receiver goes off and the late-reply record with it (R88). -/
def enterDoze (p : PortId) (s : State) : State :=
  (moveTo p .doze .dozeEntered s).modPort p fun q =>
    { q with lateReply := none, line := q.line.switchOff .released }

/-- A port leaves DOZE (R31): TRIMMING (QUICK), receiver on, a QUICK AUTO request. -/
def leaveDoze (p : PortId) (s : State) : State :=
  (moveTo p (.trimming .quick) .dozeLeft s).modPort p fun q =>
    Port.handOver p .quick .auto { q with line := q.line.switchOn }

/-- DOZE past the common checks (R30, R31). -/
def doze (f : HostFrame) (a : PortId × DozeDir) (s : State) : State :=
  let q := s.port a.1
  match a.2 with
  | .enter =>
    if !q.state.inService then respond f .portState [] s
    else if !q.dozeIdle then respond f .portBusy [] s
    else enterDoze a.1 (respond f .ok [] s)
  | .leave =>
    if q.state = .doze then leaveDoze a.1 (respond f .ok [] s) else respond f .portState [] s

/-- A DOZE frame whose direction byte reads LEAVE. -/
def dozeLeaves (f : HostFrame) : Bool := f.body[1]? == some 2

/-- DOZE, common checks and effect. -/
def takeDoze (f : HostFrame) (s : State) : State :=
  match parseDoze f.body with
  | .error r => respond f r [] s
  | .ok a => doze f a s

/-- DOZE with direction ENTER, and every DOZE frame whose direction byte does not read LEAVE (R30, log 13). -/
def execDozeEnter (s : State) : Host.Outcome State Fault Refusal :=
  .next (takeFrameIf (fun f => f.kind == 0x0A && !dozeLeaves f) takeDoze s)

/-- DOZE with direction LEAVE (R31, log 13). -/
def execDozeLeave (s : State) : Host.Outcome State Fault Refusal :=
  .next (takeFrameIf (fun f => f.kind == 0x0A && dozeLeaves f) takeDoze s)

/-- The claim number a HOST request carries: a new one while the claim is NONE, the current one otherwise (R112). -/
def Port.requestNumber (q : Port) : Byte := if q.claim = .none then q.claimNumber + 1 else q.claimNumber

/-- The port engine hands over a request that enters as a new one (R112, R116). -/
def Port.claimNew (q : Port) (kind : CalKind) : Port :=
  if q.claim = .none then { q with claimNumber := q.claimNumber + 1, claim := .queued, claimKind := some kind } else q

/-- CALIBRATE past the common checks (R116). The trim unit has by then taken what the port sent before (log 5), and
its answer is the response. -/
def calibrate (f : HostFrame) (p : PortId) (kind : CalKind) (s : State) : State :=
  if !(s.port p).state.receives then respond f .portState [] s
  else if (s.port p).claim = .window then respond f .calBusy [] s
  else
    let s := drainPort p s
    let r : Request := ⟨p, kind, .host, 1, (s.port p).requestNumber⟩
    let answer := (takeRequest r s).1
    let s := respond f answer [] s
    let s := if answer = .ok then s.modPort p fun q => q.claimNew kind else s
    (takeRequest r s).2

/-- CALIBRATE (R116). -/
def execCalibrate (s : State) : Host.Outcome State Fault Refusal :=
  .next (takeCommand 0x0B parseCalibrate (fun f a s => calibrate f a.1 a.2 s) s)

end Sys2Proof.Machine
end

