-- ==== Sys2Proof/Machine/ResetEvents.lean ====
section
/-! DEFINITION. Resets and start-up: POWER_ON, RESET_N_ASSERT, RESET_N_RELEASE, HUB_RESET_CARRIED_OUT, START_UP_END
(R161, R162). -/

namespace Sys2Proof.Machine

/-- Every block at its power-on values (R161); the queue of commands is not the hub's. -/
def State.poweredOn (s : State) : State := { State.reset with pending := s.pending }

/-- The beginning of start-up: the power-on values, with the rate read from the LINKSEL pins (R152, R161 steps 1
to 4). -/
def State.startingUp (s : State) (cause : StartCause) (linksel : BitVec 2) : State :=
  { s.poweredOn with power := .startUp cause, link := { Link.reset with rate := linksel } }

/-- POWER_ON (R161): power-on values, with RESET_N low (log 1). -/
def execPowerOn (s : State) : Host.Outcome State Fault Refusal := .next s.poweredOn

/-- RESET_N_ASSERT (R161): the hub stops where it stands, in any state, and holds its power-on values. The link rate
that an earlier start-up read is put to 0 with them until the next start-up reads the pins (log 12, DESIGN CHOICE). -/
def execResetNAssert (s : State) : Host.Outcome State Fault Refusal := .next s.poweredOn

/-- RESET_N_RELEASE (R161): start-up begins with cause POWER. A RESET_N that is not low cannot be released. -/
def execResetNRelease (linksel : BitVec 2) (s : State) : Host.Outcome State Fault Refusal :=
  match s.power with
  | .heldReset => .next (s.startingUp .power linksel)
  | .startUp _ => .next s
  | .running => .next s

/-- No notice is on TXD. -/
def Tx.noNotice : Tx → Bool
  | .idle => true
  | .response _ => true
  | .notice _ => false

/-- HUB_RESET has been taken and its response, the last in the queue, has left for TXD or has already been sent
(R162 steps 1 and 2, log 11). -/
def State.resetDue (s : State) : Bool :=
  decide (s.power = .running) && s.cmd.draining && s.link.responses.isEmpty && s.link.tx.noNotice

/-- HUB_RESET_CARRIED_OUT (R162 steps 3 and 4): every block goes to its power-on values and start-up follows with
cause COMMAND. -/
def execHubResetCarriedOut (linksel : BitVec 2) (s : State) : Host.Outcome State Fault Refusal :=
  .next (if s.resetDue then s.startingUp .command linksel else s)

/-- START_UP_END (R161 steps 5 and 6): the framer in HUNT, the receiver waiting for RXD high (R155), and HUB_READY
queued, which the IDLE transmitter takes at once. -/
def execStartUpEnd (s : State) : Host.Outcome State Fault Refusal :=
  match s.power with
  | .startUp c =>
    .next (postNotice (.hubReady c)
      { s with power := .running,
               link := { s.link with framer := .hunt, gapRunning := false, receiver := .waitHigh } })
  | .heldReset => .next s
  | .running => .next s

end Sys2Proof.Machine
end

