-- ==== Sys2Proof/Machine/StationCommands.lean ====
section
/-! DEFINITION. The host commands on the station table, and SWEEP (R48 to R52, R141). -/

namespace Sys2Proof.Machine

/-- ADD_STATION (R48). -/
def execAddStation (s : State) : Host.Outcome State Fault Refusal :=
  .next (takeCommand 0x0C parseAdd
    (fun f a s =>
      let q := s.port a.1
      if (q.station a.2.1).isSome then respond f .stationExists [] s
      else if Config.tablePlaces ≤ q.stations.length then respond f .tableFull [] s
      else
        (respond f .ok [] s).modPort a.1 fun q =>
          { q with stations := q.stations ++ [Station.create a.2.1 a.2.2] }) s)

/-- A live transaction of the port, queued or in flight, names the station, or its active sweep is on it (R49). -/
def Port.stationBusy (q : Port) (a : Addr) : Bool :=
  q.queue.any (fun t => t.station == some a)
  || (match q.inFlight with
      | some f => (match f.work with
        | .txn r => r.txn.station == some a
        | .probe _ => false)
      | none => false)
  || (match q.sweep with
      | some w => w.station == a
      | none => false)

/-- REMOVE_STATION (R49): the entries after it close up (R39). -/
def execRemoveStation (s : State) : Host.Outcome State Fault Refusal :=
  .next (takeCommand 0x0D parseStation
    (fun f a s =>
      let q := s.port a.1
      if (q.station a.2).isNone then respond f .unknownStation [] s
      else if q.stationBusy a.2 then respond f .stationBusy [] s
      else
        (respond f .ok [] s).modPort a.1 fun q =>
          { q with stations := q.stations.filter fun e => e.addr != a.2 }) s)

/-- The entry after a release (R50). -/
def Station.released (e : Station) : Station := { e with strikes := 0, failureRun := 0, state := .active }

/-- RELEASE_STATION (R50), with its STATION_STATE when the state changed. -/
def execReleaseStation (s : State) : Host.Outcome State Fault Refusal :=
  .next (takeCommand 0x0E parseStation
    (fun f a s =>
      if ((s.port a.1).station a.2).isNone then respond f .unknownStation [] s
      else updateStation a.1 a.2 Station.released .released (respond f .ok [] s)) s)

/-- The active sweep is on the station (R51). -/
def Port.sweeping (q : Port) (a : Addr) : Bool :=
  match q.sweep with
  | some w => w.station == a
  | none => false

/-- SET_THRESHOLD (R51): the record becomes the one given with origin MANUAL. -/
def execSetThreshold (s : State) : Host.Outcome State Fault Refusal :=
  .next (takeCommand 0x0F parseThreshold
    (fun f a s =>
      let q := s.port a.1
      if (q.station a.2.1).isNone then respond f .unknownStation [] s
      else if q.sweeping a.2.1 then respond f .sweepBusy [] s
      else
        (respond f .ok [] s).modPort a.1 fun q =>
          q.modStation a.2.1 fun e => { e with threshold := a.2.2, origin := .manual }) s)

/-- STATION_STATUS (R52). -/
def execStationStatus (s : State) : Host.Outcome State Fault Refusal :=
  .next (takeCommand 0x10 parseStation
    (fun f a s =>
      match (s.port a.1).station a.2 with
      | none => respond f .unknownStation [] s
      | some e => respond f .ok (stationStatusData ((s.port a.1).position a.2) e) s) s)

/-- A sweep record at creation (R140). -/
def Sweep.create (a : Addr) (r : ThRange) : Sweep :=
  { station := a, range := r, next := 0, map := List.replicate Config.sweepCodes .untried, restarts := 0,
    last := .transaction }

/-- SWEEP past the common checks, its own checks in order (R141). -/
def sweepCommand (f : HostFrame) (p : PortId) (a : Addr) (r : ThRange) (s : State) : State :=
  let q := s.port p
  if !q.state.inService then respond f .portState [] s
  else
    match q.station a with
    | none => respond f .unknownStation [] s
    | some e =>
      if e.state = .quarantined then respond f .stationQuarantined [] s
      else if q.sweep.isSome then respond f .sweepBusy [] s
      else (respond f .ok [] s).modPort p fun q => Port.nextWork { q with sweep := some (Sweep.create a r) }

/-- SWEEP (R141). -/
def execSweep (s : State) : Host.Outcome State Fault Refusal :=
  .next (takeCommand 0x11 parseSweep (fun f a s => sweepCommand f a.1 a.2.1 a.2.2 s) s)

end Sys2Proof.Machine
end

