-- ==== Sys2Proof/Machine/TrimEvents.lean ====
section
/-! DEFINITION. The calibration events: the messages a port engine and the trim unit take of each other, the
comparisons, the spoil report and the quick-cal timer (chapters 7 and 8). -/

namespace Sys2Proof.Machine

/-! ### The quick-cal timer (R133 to R136) -/

/-- An expiry (R114, R135): a QUICK AUTO request if the claim is NONE, and otherwise dropped. -/
def Port.expire (p : PortId) (q : Port) : Port :=
  let q := { q with timer := .expired }
  if q.claim = .none then q.handOver p .quick .auto else q

/-- The outcome of an open window that is not SPOILED. -/
def HolderPhase.endsFinal : HolderPhase → Bool
  | .granted => false
  | .measuring _ _ => false
  | .ending _ o _ => decide (o ≠ .spoiled)

/-- The port has taken the final outcome of its window, which restarted its timer, and the closure that follows has
not reached it: its acknowledgement or the closure is on its way (R123, R126, R134). -/
def State.closing (s : State) (p : PortId) : Bool :=
  let q := s.port p
  decide (q.claim = .window) &&
    (q.fromTrim.contains (.closure q.claimNumber false) ||
      (q.toTrim.contains (.acknowledge q.claimNumber) &&
        s.trim.holder.any fun h =>
          h.request.port == p && h.request.number == q.claimNumber && h.phase.endsFinal))

/-- `n` milliseconds of a quick-cal timer (R133). -/
def QuickTimer.pass (n : Nat) : QuickTimer → QuickTimer
  | .running ms => .running (ms - n)
  | .stopped => .stopped
  | .expired => .expired

/-- A running timer reaches 0 before `n` milliseconds have passed. -/
def QuickTimer.runsOutWithin (n : Nat) : QuickTimer → Bool
  | .running ms => decide (ms < n)
  | .stopped => false
  | .expired => false

/-- `n` milliseconds at one port (R133, R135). A timer that reaches 0 before they have passed has expired; one that
reaches 0 as they end stands there for its own expiry, and so does that of a port whose closure is due (log 8, DESIGN
CHOICE). -/
def Port.pass (p : PortId) (n : Nat) (closing : Bool) (q : Port) : Port :=
  let later := { q with timer := q.timer.pass n }
  if q.timer.runsOutWithin n && !closing then later.expire p else later

/-- `n` milliseconds pass for every port's quick-cal timer (R133). A step on an empty queue lets one pass, and
QUICK_CAL_EXPIRY those that its timer had left (log 8, DESIGN CHOICE). -/
def State.pass (n : Nat) (s : State) : State :=
  whenRunning s fun s => s.mapPorts fun p q => q.pass p n (s.closing p)

/-- QUICK_CAL_EXPIRY (R135): the remaining time of the port's running timer passes, for every port alike, and the
timer expires. Timers that reach 0 together have nothing more to pass at the expiries that follow. A timer that the window
end has restarted has its full interval before it, which is 100 ms or more, so it does not expire before the closure
(log 8). -/
def execQuickCalExpiry (p : PortId) (s : State) : Host.Outcome State Fault Refusal :=
  .next (whenRunning s fun s =>
    match (s.port p).timer with
    | .running ms => if s.closing p then s else (s.pass ms).modPort p (Port.expire p)
    | .stopped => s
    | .expired => s)

/-- A running timer above the new interval is cut to it (R136). -/
def QuickTimer.cut (t : QuickTimer) (interval : Nat) : QuickTimer :=
  match t with
  | .running ms => .running (min ms interval)
  | .stopped => .stopped
  | .expired => .expired

/-- A port engine takes the oldest new interval on its way to it (R136). -/
def Port.takeInterval (q : Port) : Port :=
  match q.newIntervals with
  | [] => q
  | v :: rest => { q with newIntervals := rest, interval := v, timer := q.timer.cut v }

/-- NEW_INTERVAL (R136). -/
def execNewInterval (p : PortId) (s : State) : Host.Outcome State Fault Refusal :=
  .next (whenRunning s fun s => s.modPort p Port.takeInterval)

/-! ### Messages the trim unit takes -/

/-- The trim unit takes the oldest message of a port if it is one of `mine` (log 4). -/
def takeFromPort (p : PortId) (mine : PortMsg → Bool) (s : State) : State :=
  whenRunning s fun s =>
    match (s.port p).toTrim with
    | [] => s
    | m :: _ => if mine m then takePortMsg p m (dropPortMsg p s) else s

/-- A request. -/
def PortMsg.isRequest : PortMsg → Bool
  | .request _ => true
  | .windowOpen _ => false
  | .acknowledge _ => false
  | .withdraw _ => false

/-- Window open. -/
def PortMsg.isWindowOpen : PortMsg → Bool
  | .request _ => false
  | .windowOpen _ => true
  | .acknowledge _ => false
  | .withdraw _ => false

/-- An acknowledgement. -/
def PortMsg.isAcknowledge : PortMsg → Bool
  | .request _ => false
  | .windowOpen _ => false
  | .acknowledge _ => true
  | .withdraw _ => false

/-- A withdrawal. -/
def PortMsg.isWithdraw : PortMsg → Bool
  | .request _ => false
  | .windowOpen _ => false
  | .acknowledge _ => false
  | .withdraw _ => true

/-- CALIBRATION_REQUEST (R114, R115). -/
def execCalibrationRequest (p : PortId) (s : State) : Host.Outcome State Fault Refusal :=
  .next (takeFromPort p PortMsg.isRequest s)

/-- WINDOW_OPEN (R118). -/
def execWindowOpen (p : PortId) (s : State) : Host.Outcome State Fault Refusal :=
  .next (takeFromPort p PortMsg.isWindowOpen s)

/-- ACKNOWLEDGEMENT (R123 step 3). -/
def execAcknowledgement (p : PortId) (s : State) : Host.Outcome State Fault Refusal :=
  .next (takeFromPort p PortMsg.isAcknowledge s)

/-- WITHDRAWAL (R124). -/
def execWithdrawal (p : PortId) (s : State) : Host.Outcome State Fault Refusal :=
  .next (takeFromPort p PortMsg.isWithdraw s)

/-- COMPARISON_DECIDED (R119, R120). -/
def execComparisonDecided (answer : Comparison) (s : State) : Host.Outcome State Fault Refusal :=
  .next (whenRunning s (takeComparison answer))

/-- SPOIL_REPORT (R122): the trim unit takes the oldest spoil report of the port's detector. -/
def execSpoilReport (p : PortId) (s : State) : Host.Outcome State Fault Refusal :=
  .next (whenRunning s fun s =>
    match (s.port p).spoils with
    | [] => s
    | n :: rest => takeSpoil p n (s.modPort p fun q => { q with spoils := rest }))

/-! ### Messages a port engine takes -/

/-- The claim number a message carries (R112). -/
def TrimMsg.number : TrimMsg → Byte
  | .upgraded n => n
  | .granted n => n
  | .windowEnd n _ _ _ _ => n
  | .closure n _ => n

/-- A message that the port engine discards: its claim is NONE, or its claim number is another (R112). -/
def Port.discards (q : Port) (m : TrimMsg) : Bool := decide (q.claim = .none) || decide (m.number ≠ q.claimNumber)

/-- The port engine takes the oldest message of the trim unit if it is one of `mine`, and acts on it unless it
discards it (R112, log 4). -/
def takeFromTrim (p : PortId) (mine : TrimMsg → Bool) (act : TrimMsg → State → State) (s : State) : State :=
  whenRunning s fun s =>
    match (s.port p).fromTrim with
    | [] => s
    | m :: rest =>
      if mine m then
        let s := s.modPort p fun q => { q with fromTrim := rest }
        if (s.port p).discards m then s else act m s
      else s

/-- An upgrade report. -/
def TrimMsg.isUpgrade : TrimMsg → Bool
  | .upgraded _ => true
  | .granted _ => false
  | .windowEnd _ _ _ _ _ => false
  | .closure _ _ => false

/-- A grant. -/
def TrimMsg.isGrant : TrimMsg → Bool
  | .upgraded _ => false
  | .granted _ => true
  | .windowEnd _ _ _ _ _ => false
  | .closure _ _ => false

/-- A window end. -/
def TrimMsg.isWindowEnd : TrimMsg → Bool
  | .upgraded _ => false
  | .granted _ => false
  | .windowEnd _ _ _ _ _ => true
  | .closure _ _ => false

/-- A closure. -/
def TrimMsg.isClosure : TrimMsg → Bool
  | .upgraded _ => false
  | .granted _ => false
  | .windowEnd _ _ _ _ _ => false
  | .closure _ _ => true

/-- An upgrade taken (R27, R115): a TRIMMING (QUICK) port becomes TRIMMING (FULL). -/
def takeUpgrade (p : PortId) (s : State) : State :=
  let s := s.modPort p fun q => { q with claimKind := some .full }
  if (s.port p).state = .trimming .quick then moveTo p (.trimming .full) .upgraded s else s

/-- UPGRADE (R27). -/
def execUpgrade (p : PortId) (s : State) : Host.Outcome State Fault Refusal :=
  .next (takeFromTrim p TrimMsg.isUpgrade (fun _ => takeUpgrade p) s)

/-- A TRIMMING port. -/
def PortState.isTrimming : PortState → Bool
  | .trimming _ => true
  | .off => false
  | .ready => false
  | .degraded => false
  | .doze => false
  | .faulted _ => false

/-- A grant taken (R34, R118): a TRIMMING port opens its window at once, a READY or DEGRADED one decides its next
work. -/
def Port.takeGrant (q : Port) : Port :=
  if q.claim = .queued then
    let q := { q with claim := .granted }
    if q.state.isTrimming then q.openWindow else q.nextWork
  else q

/-- GRANT (R34). -/
def execGrant (p : PortId) (s : State) : Host.Outcome State Fault Refusal :=
  .next (takeFromTrim p TrimMsg.isGrant (fun _ s => s.modPort p Port.takeGrant) s)

/-! ### The window end at the port engine (R26, R123, R126) -/

/-- The move of R26: the new state and its cause, or none where the table names no move. SPOILED is not final and
moves nothing. -/
def PortState.outcomeMove (st : PortState) (o : WindowOutcome) : Option (PortState × TransCause) :=
  match st, o with
  | _, .spoiled => none
  | .trimming _, .done => some (.ready, .trimmed)
  | .trimming _, .rail => some (.degraded, .rail)
  | .trimming .full, .failed => some (.faulted .trim, .calFailed)
  | .trimming .quick, .failed => some (.degraded, .calFailed)
  | .ready, .done => none
  | .ready, .rail => some (.degraded, .rail)
  | .ready, .failed => some (.degraded, .calFailed)
  | .degraded, .done => some (.ready, .recovered)
  | .degraded, .rail => none
  | .degraded, .failed => none
  | .off, _ => none
  | .doze, _ => none
  | .faulted _, _ => none

/-- Step 1 (R26, R126): the claim is set to NONE before a move to FAULTED (TRIM), so its withdrawal sends nothing. -/
def windowMove (p : PortId) (o : WindowOutcome) (s : State) : State :=
  match (s.port p).state.outcomeMove o with
  | none => s
  | some (.faulted c, tc) =>
    enterFault p c tc (s.modPort p fun q => { q with claim := .none, claimKind := none })
  | some (st, tc) => moveTo p st tc s

/-- Step 2 (R36, R126): the QUICK counters. -/
def PortCounters.afterWindow (c : PortCounters) (kind : CalKind) (o : WindowOutcome) : PortCounters :=
  match kind, o with
  | .quick, .done => { c with quickDone := satInc c.quickDone }
  | .quick, .rail => { c with quickFailed := satInc c.quickFailed }
  | .quick, .failed => { c with quickFailed := satInc c.quickFailed }
  | .quick, .spoiled => c
  | .full, _ => c

/-- Step 3 (R134): the timer restarts from the full interval if the port is in service. -/
def Port.restartTimer (q : Port) : Port :=
  if q.state.inService then { q with timer := .running q.interval } else q

/-- A sweep restarted (R147). -/
def Sweep.restart (w : Sweep) : Sweep :=
  { w with map := List.replicate Config.sweepCodes .untried, next := 0, restarts := w.restarts + 1 }

/-- Step 4 (R147): a trim change restarts the sweep, or abandons it at the third change. -/
def tellSweep (p : PortId) (s : State) : State :=
  match (s.port p).sweep with
  | none => s
  | some w =>
    if w.restarts < Config.maxRestarts then s.modPort p fun q => { q with sweep := some w.restart }
    else abandonSweep p .trimChanged s

/-- The sweep is told of DONE and RAIL with the changed flag set (R126 step 4). -/
def WindowOutcome.tells (o : WindowOutcome) (changed : Bool) : Bool :=
  (decide (o = .done) || decide (o = .rail)) && changed

/-- What a final outcome does (R126, in its order). -/
def finalOutcome (p : PortId) (o : WindowOutcome) (kind : CalKind) (changed : Bool) (s : State) : State :=
  let s := (windowMove p o s).modPort p fun q =>
    Port.restartTimer { q with counters := q.counters.afterWindow kind o }
  if o.tells changed then tellSweep p s else s

/-- A window end taken with the claim at WINDOW (R123): the outcome's work unless it is SPOILED, then the
acknowledgement. -/
def takeWindowEnd (p : PortId) (number : Byte) (o : WindowOutcome) (kind : CalKind) (changed : Bool) (s : State) :
    State :=
  if (s.port p).claim = .window then
    (if o = .spoiled then s else finalOutcome p o kind changed s).modPort p fun q =>
      { q with toTrim := q.toTrim ++ [.acknowledge number] }
  else s

/-- WINDOW_END (R126). -/
def execWindowEnd (p : PortId) (s : State) : Host.Outcome State Fault Refusal :=
  .next (takeFromTrim p TrimMsg.isWindowEnd
    (fun m s =>
      match m with
      | .windowEnd n o kind _ changed => takeWindowEnd p n o kind changed s
      | .upgraded _ => s
      | .granted _ => s
      | .closure _ _ => s) s)

/-- A closure taken with the claim at WINDOW (R123): the claim, the driver reconnected, the next work. -/
def Port.takeClosure (q : Port) (requeued : Bool) : Port :=
  if q.claim = .window then
    Port.nextWork { q with
      claim := if requeued then .queued else .none
      claimKind := if requeued then q.claimKind else none
      line := { q.line with
        driver := if q.line.driver = .disconnected then .released else q.line.driver } }
  else q

/-- CLOSURE (R123). -/
def execClosure (p : PortId) (s : State) : Host.Outcome State Fault Refusal :=
  .next (takeFromTrim p TrimMsg.isClosure
    (fun m s =>
      match m with
      | .closure _ requeued => s.modPort p fun q => q.takeClosure requeued
      | .upgraded _ => s
      | .granted _ => s
      | .windowEnd _ _ _ _ _ => s) s)

end Sys2Proof.Machine
end

