-- ==== Sys2Proof/Machine/TxnCommands.lean ====
section
/-! DEFINITION. The host commands on transactions: SUBMIT, CANCEL, QUEUE_LIST (R58 to R61, R78 to R81). -/

namespace Sys2Proof.Machine

/-- The EXPEDITED class. -/
def Txn.isExpedited (t : Txn) : Bool := t.cls == .expedited

/-- Insertion in class order (R61): EXPEDITED after the last EXPEDITED, NORMAL at the tail. -/
def insertTxn (t : Txn) (queue : List Txn) : List Txn :=
  match t.cls with
  | .normal => queue ++ [t]
  | .expedited => queue.takeWhile Txn.isExpedited ++ t :: queue.dropWhile Txn.isExpedited

/-- Attempts given as 0 become the port's default attempts at acceptance (R18, R60). -/
def Port.fillAttempts (q : Port) (t : Txn) : Txn :=
  if t.attempts = 0 then { t with attempts := q.settings.attempts.toNat } else t

/-- The record enters the queue; if the queue was empty the port decides its next work (R60). -/
def Port.accept (q : Port) (t : Txn) : Port :=
  let q' := { q with queue := insertTxn (q.fillAttempts t) q.queue }
  if q.queue.isEmpty then q'.nextWork else q'

/-- The station checks of a SUBMIT: absent, or QUARANTINED (R54, R59 steps 3 and 4). -/
def Port.stationCheck (q : Port) (t : Txn) : Option Result :=
  match t.station with
  | none => none
  | some a =>
    match q.station a with
    | none => some .unknownStation
    | some e => if e.state = .quarantined then some .stationQuarantined else none

/-- The own checks of a SUBMIT, the first that fails (R59). -/
def submitCheck (s : State) (p : PortId) (t : Txn) : Option Result :=
  let q := s.port p
  if q.state = .doze then some .portDozing
  else if !q.state.receives then some .portState
  else if (s.liveTag t.tag).isSome then some .duplicateTag
  else
    match q.stationCheck t with
    | some r => some r
    | none => if Config.queuePlaces ≤ q.queue.length then some .queueFull else none

/-- SUBMIT past the common checks (R59, R60). -/
def submit (f : HostFrame) (p : PortId) (t : Txn) (s : State) : State :=
  match submitCheck s p t with
  | some r => respond f r [] s
  | none => (addTag t.tag p (respond f .ok [] s)).modPort p fun q => q.accept t

/-- SUBMIT (R60). -/
def execSubmit (s : State) : Host.Outcome State Fault Refusal :=
  .next (takeCommand 0x12 parseSubmit (fun f a s => submit f a.1 a.2 s) s)

/-- CANCEL past the common checks (R78 to R80). -/
def cancel (f : HostFrame) (tag : Word16) (s : State) : State :=
  match s.liveTag tag with
  | none => respond f .notFound [] s
  | some e =>
    match (s.port e.port).queue.find? fun t => t.tag == tag with
    | none => respond f .inFlight [] s
    | some t =>
      finish e.port t .cancelled 0 none
        ((respond f .ok [] s).modPort e.port fun q => { q with queue := q.queue.filter fun u => u.tag != tag })

/-- CANCEL (R78). -/
def execCancel (s : State) : Host.Outcome State Fault Refusal :=
  .next (takeCommand 0x13 parseCancel (fun f tag s => cancel f tag s) s)

/-- QUEUE_LIST (R81). -/
def execQueueList (s : State) : Host.Outcome State Fault Refusal :=
  .next (takeCommand 0x14 parsePortOnly (fun f p s => respond f .ok (queueListData (s.port p)) s) s)

end Sys2Proof.Machine
end

