-- ==== Sys2Proof/Machine/Dispatch.lean ====
section
/-! DEFINITION. Dispatch: one arm per command. -/

namespace Sys2Proof.Machine

/-- The effect of a command on everything but the queue of commands. -/
def exec (i : Instr) (s : State) : Host.Outcome State Fault Refusal :=
  match i with
  | .identify => Sys2Proof.Machine.execIdentify s
  | .hubStatus => Sys2Proof.Machine.execHubStatus s
  | .hubReset => Sys2Proof.Machine.execHubReset s
  | .setDrift => Sys2Proof.Machine.execSetDrift s
  | .portEnable => Sys2Proof.Machine.execPortEnable s
  | .portDisable => Sys2Proof.Machine.execPortDisable s
  | .portReset => Sys2Proof.Machine.execPortReset s
  | .portStatus => Sys2Proof.Machine.execPortStatus s
  | .setTermination => Sys2Proof.Machine.execSetTermination s
  | .dozeEnter => Sys2Proof.Machine.execDozeEnter s
  | .dozeLeave => Sys2Proof.Machine.execDozeLeave s
  | .calibrate => Sys2Proof.Machine.execCalibrate s
  | .addStation => Sys2Proof.Machine.execAddStation s
  | .removeStation => Sys2Proof.Machine.execRemoveStation s
  | .releaseStation => Sys2Proof.Machine.execReleaseStation s
  | .setThreshold => Sys2Proof.Machine.execSetThreshold s
  | .stationStatus => Sys2Proof.Machine.execStationStatus s
  | .sweep => Sys2Proof.Machine.execSweep s
  | .submit => Sys2Proof.Machine.execSubmit s
  | .cancel => Sys2Proof.Machine.execCancel s
  | .queueList => Sys2Proof.Machine.execQueueList s
  | .unknownCommand => Sys2Proof.Machine.execUnknownCommand s
  | .powerOn => Sys2Proof.Machine.execPowerOn s
  | .resetNAssert => Sys2Proof.Machine.execResetNAssert s
  | .resetNRelease linksel => Sys2Proof.Machine.execResetNRelease linksel s
  | .hubResetCarriedOut linksel => Sys2Proof.Machine.execHubResetCarriedOut linksel s
  | .startUpEnd => Sys2Proof.Machine.execStartUpEnd s
  | .hostByteReceived b => Sys2Proof.Machine.execHostByteReceived b s
  | .charFraming => Sys2Proof.Machine.execCharFraming s
  | .linkBreak => Sys2Proof.Machine.execLinkBreak s
  | .hostGapTimeout => Sys2Proof.Machine.execHostGapTimeout s
  | .txFrameEnd => Sys2Proof.Machine.execTxFrameEnd s
  | .characterReceived p c => Sys2Proof.Machine.execCharacterReceived p c s
  | .characterGapExpiry p => Sys2Proof.Machine.execCharacterGapExpiry p s
  | .lineBecomesIdle p => Sys2Proof.Machine.execLineBecomesIdle p s
  | .frameSent p => Sys2Proof.Machine.execFrameSent p s
  | .collision p => Sys2Proof.Machine.execCollision p s
  | .startInTurnaround p => Sys2Proof.Machine.execStartInTurnaround p s
  | .turnaroundExpiry p => Sys2Proof.Machine.execTurnaroundExpiry p s
  | .replyTimeout p => Sys2Proof.Machine.execReplyTimeout p s
  | .stuckLineExpiry p => Sys2Proof.Machine.execStuckLineExpiry p s
  | .quickCalExpiry p => Sys2Proof.Machine.execQuickCalExpiry p s
  | .newInterval p => Sys2Proof.Machine.execNewInterval p s
  | .calibrationRequest p => Sys2Proof.Machine.execCalibrationRequest p s
  | .upgrade p => Sys2Proof.Machine.execUpgrade p s
  | .grant p => Sys2Proof.Machine.execGrant p s
  | .windowOpen p => Sys2Proof.Machine.execWindowOpen p s
  | .comparisonDecided answer => Sys2Proof.Machine.execComparisonDecided answer s
  | .spoilReport p => Sys2Proof.Machine.execSpoilReport p s
  | .windowEnd p => Sys2Proof.Machine.execWindowEnd p s
  | .acknowledgement p => Sys2Proof.Machine.execAcknowledgement p s
  | .closure p => Sys2Proof.Machine.execClosure p s
  | .withdrawal p => Sys2Proof.Machine.execWithdrawal p s
  | .activeSample p => Sys2Proof.Machine.execActiveSample p s
  | .startBitAccepted p atLimit => Sys2Proof.Machine.execStartBitAccepted p atLimit s
  | .restLevelSample p => Sys2Proof.Machine.execRestLevelSample p s
  | .rxdReturnsHigh => Sys2Proof.Machine.execRxdReturnsHigh s

end Sys2Proof.Machine
end

