-- ==== Sys2Proof/Safety.lean ====
section
/-! DEFINITION. What counts as a safe state: the laws of the device (00_scope) as predicates over a state, each a
decidable proposition. -/

namespace Sys2Proof.Machine

/-- Every record a port computes stands as the spec's tables give it (R95, R101, R102). -/
abbrev Port.RecordsCurrent (q : Port) : Prop :=
  q.selected = q.selectTermination ∧ q.line.stuck = q.stuckTimer

/-- Law 4: while the driver is sending, the selected termination is HIGH_Z (R103). -/
abbrev Port.SendsUnterminated (q : Port) : Prop := q.line.driver = .driving → q.selected = ⟨.highZ, 0⟩

/-- Law 14: OFF and FAULTED ports have HIGH_Z termination (R102). -/
abbrev Port.OffUnterminated (q : Port) : Prop := q.state.receives = false → q.selected = ⟨.highZ, 0⟩

/-- Law 8: work is in flight only while the port is READY or DEGRADED (R33). -/
abbrev Port.InFlightInService (q : Port) : Prop := q.inFlight ≠ none → q.state.inService = true

/-- Law 3: no calibration window is open while work is in flight (R34). -/
abbrev Port.WindowAlone (q : Port) : Prop := q.claim = .window → q.inFlight = none

/-- Law 6, the capacity (R61). -/
abbrev Port.QueueFits (q : Port) : Prop := q.queue.length ≤ Config.queuePlaces

/-- Law 6, the class order: no NORMAL transaction stands before an EXPEDITED one (R61). -/
abbrev Port.QueueOrdered (q : Port) : Prop :=
  q.queue.Pairwise fun a b => a.cls = .normal → b.cls = .normal

/-- Law 10 and the capacity of R39. -/
abbrev Port.TableFits (q : Port) : Prop :=
  q.stations.length ≤ Config.tablePlaces ∧ (q.stations.map Station.addr).Nodup

/-- The collision run stays within 0 to 8 (R37). -/
abbrev Port.RunFits (q : Port) : Prop := q.collisionRun ≤ Config.collisionLimit

/-- The quick-cal timer is STOPPED outside READY and DEGRADED (R133). -/
abbrev Port.TimerInService (q : Port) : Prop := q.state.inService = false → q.timer = .stopped

/-- The driver drives only a frame of in-flight work in SENDING (R2, R64), and the turnaround timer runs only in
TURNAROUND (R68). -/
abbrev Port.LineFollowsPhase (q : Port) : Prop :=
  (q.line.driver = .driving → q.phase = some .sending) ∧ (q.line.turnaround ≠ none → q.phase = some .turnaround)

/-- The late-reply record is absent from an exchange's first start bit to its end: the start bit clears it, and only
a reply timeout, which ends the exchange, sets it (R88). -/
abbrev Port.LateReplyCleared (q : Port) : Prop :=
  (q.phase = some .sending ∨ q.phase = some .turnaround ∨ q.phase = some .awaiting ∨ q.phase = some .receiving) →
  q.lateReply = none

/-- A predicate of every port. -/
abbrev State.EveryPort (s : State) (P : Port → Prop) : Prop := ∀ p, P (s.port p)

/-- Law 2: at most one queued request per port, and none of the holder's (R113). -/
abbrev TrimUnit.QueueAlone (u : TrimUnit) : Prop :=
  (u.queue.map Request.port).Nodup ∧ ∀ h, u.holder = some h → h.request.port ∉ u.queue.map Request.port

/-- Law 7: no two live entries carry the same tag (R57). -/
abbrev State.TagsDistinct (s : State) : Prop := (s.cmd.live.map LiveTag.tag).Nodup

/-- The places of the host link's queues (R156, R157, R159). -/
abbrev Link.Fits (l : Link) : Prop :=
  l.inbound.length ≤ Config.inboundPlaces ∧ l.responses.length ≤ Config.responsePlaces ∧
  l.notices.length ≤ Config.noticePlaces

/-- The interval and the drift record stay in their ranges (R130, R131). -/
abbrev TrimUnit.InRange (u : TrimUnit) : Prop :=
  u.dT ≤ Config.maxDT ∧ u.dV ≤ Config.maxDV ∧ u.interval = max Config.minInterval (min Config.maxInterval u.interval)

/-! ### What a command does, said of the state before it and the state after it -/

/-- The responses queued and not yet sent whole, the one on TXD first (R157, R158). -/
def Link.answers (l : Link) : List Response :=
  match l.tx with
  | .response r => r :: l.responses
  | .idle => l.responses
  | .notice _ => l.responses

/-- The notices queued and not yet sent whole, the one on TXD first (R158, R159). -/
def Link.reports (l : Link) : List Numbered :=
  match l.tx with
  | .notice n => n :: l.notices
  | .idle => l.notices
  | .response _ => l.notices

/-- Notices numbered consecutively modulo 256 (R159). -/
def numberFrom (first : Byte) : List Notice → List Numbered
  | [] => []
  | n :: rest => ⟨first, n⟩ :: numberFrom (first + 1) rest

/-- The next notice number after `n` notices (R159). -/
def advance (first : Byte) (n : Nat) : Byte := first + BitVec.ofNat 8 n

/-- Room for `n` more notices, with a place to spare: none is lost, and no NOTICES_LOST is due (R159, R160). -/
abbrev State.RoomFor (s : State) (n : Nat) : Prop := s.link.notices.length + n < Config.noticePlaces

/-- The notices `ns` were queued, in this order, with the next numbers, and nothing else was (R159). -/
abbrev Reported (s t : State) (ns : List Notice) : Prop :=
  t.link.reports = s.link.reports ++ numberFrom s.link.nextNotice ns ∧
  t.link.nextNotice = advance s.link.nextNotice ns.length ∧ t.link.lost = s.link.lost

/-- The command unit can take the frame `f` now: it stands at the head of the inbound buffer, the response queue has
room, and no HUB_RESET drains (R157, R162). -/
abbrev State.Takes (s : State) (f : HostFrame) : Prop :=
  s.power = .running ∧ s.cmd.draining = false ∧ s.link.responses.length < Config.responsePlaces ∧
  s.link.inbound.head? = some f

/-- The receiving side of the host link but for its buffer. -/
abbrev SameReceiver (s t : State) : Prop :=
  t.link.rate = s.link.rate ∧ t.link.receiver = s.link.receiver ∧ t.link.framer = s.link.framer ∧
  t.link.gapRunning = s.link.gapRunning

/-- The frame `f` was taken and exactly one response was queued for it, with its KIND plus 80h, its SEQ, the result
`r` and the data `d` (R154, R157); the power state, the receiver and the queue of commands are as before. -/
abbrev Answered (s t : State) (f : HostFrame) (r : Result) (d : List Byte) : Prop :=
  t.power = s.power ∧ t.pending = s.pending ∧ SameReceiver s t ∧ t.link.inbound = s.link.inbound.tail ∧
  t.link.answers = s.link.answers ++ [⟨f.kind + 0x80, f.seq, r, d⟩]

/-- No response was queued, and the power state, the receiver, the inbound buffer and the queue of commands are as
before. -/
abbrev Unanswered (s t : State) : Prop :=
  t.power = s.power ∧ t.pending = s.pending ∧ SameReceiver s t ∧ t.link.inbound = s.link.inbound ∧
  t.link.answers = s.link.answers

/-- No port, no live tag and nothing in the trim unit changed. -/
abbrev SameBlocks (s t : State) : Prop := t.cmd = s.cmd ∧ t.trim = s.trim ∧ ∀ p, t.port p = s.port p

/-- No live tag, nothing in the trim unit and no port but `p` changed. -/
abbrev OnlyPort (s t : State) (p : PortId) : Prop :=
  t.cmd = s.cmd ∧ t.trim = s.trim ∧ ∀ p', p' ≠ p → t.port p' = s.port p'

/-- The frame was refused with `r`: its response is all that came of it (R165). -/
abbrev Refused (s t : State) (f : HostFrame) (r : Result) : Prop :=
  Answered s t f r [] ∧ Reported s t [] ∧ SameBlocks s t

/-- The port can take an event of its line: the hub runs and the port's receiver is on (R3). -/
abbrev State.Hears (s : State) (p : PortId) : Prop := s.power = .running ∧ (s.port p).line.receiver ≠ .off

/-- Commands run one after another, up to the first that stops. -/
def runAll : List Instr → State → Host.Outcome State Fault Refusal
  | [], s => .next s
  | c :: cs, s =>
    match exec c s with
    | .next t => runAll cs t
    | .fault r => .fault r
    | .refused r => .refused r

/-- The notices a flush queues for the work of a port, in R23's order: in-flight work, queue, sweep. -/
def Port.flushNotices (q : Port) (p : PortId) (o : TxnOutcome) (c : SweepCause) : List Notice :=
  (match q.inFlight with
    | some ⟨_, .txn r⟩ => [.txnDone r.txn.tag p o r.used none]
    | some ⟨_, .probe _⟩ => []
    | none => [])
  ++ q.queue.map (fun t => .txnDone t.tag p o 0 none)
  ++ (match q.sweep with
    | some w => [.sweepDone p w.station w.range (.abandoned c) w.map]
    | none => [])

/-- The tags of a port's live transactions, in flight and queued. -/
def Port.tags (q : Port) : List Word16 :=
  (match q.inFlight with
    | some ⟨_, .txn r⟩ => [r.txn.tag]
    | some ⟨_, .probe _⟩ => []
    | none => [])
  ++ q.queue.map Txn.tag

/-- What a withdrawal sends: nothing for claim NONE (R24). -/
def Port.withdrawals (q : Port) : List PortMsg := if q.claim = .none then [] else [.withdraw q.claimNumber]

/-- The line of a port whose exchange has ended (R63, R139): the driver released, both timers stopped, the threshold
at the port default. -/
def LineIf.ended (l : LineIf) : LineIf :=
  { l with driver := if l.driver = .driving then .released else l.driver
           sending := [], turnaround := none, reply := .stopped, threshold := ⟨.low, 20⟩ }

/-- The line of a port whose work has been flushed and its claim withdrawn, its receiver left as it was: the exchange's
part ended if work was in flight, and, if a claim was withdrawn, the driver reconnected and the spoil report no longer
made (R17, R23, R24, R97). -/
def Port.flushedLine (q : Port) : LineIf :=
  let ended := if q.inFlight = none then q.line else q.line.ended
  if q.claim = .none then ended
  else { ended with
    spoilWatch := none
    driver := if ended.driver = .disconnected then .released else ended.driver }

/-- Nothing of the hub changed but port `p`; nothing was answered or reported. -/
abbrev Quiet (s t : State) (p : PortId) : Prop := Unanswered s t ∧ Reported s t [] ∧ OnlyPort s t p

/-- The port once a completion has ended its in-flight work and reached the station table (R75 steps 1 and 4), before
its next decision. -/
def Port.afterCompletion (q : Port) (x : Txn) (o : TxnOutcome) : Port :=
  { q with
    inFlight := none
    line := q.line.ended
    stations := match x.station with
      | none => q.stations
      | some a => q.stations.map fun e => if e.addr = a then e.complete x.kind o else e }

/-- The notices of a completion: TXN_DONE, and a STATION_STATE when the station's state changes (R46, R75). -/
def Port.completionNotices (q : Port) (p : PortId) (x : Txn) (o : TxnOutcome) (used : Nat)
    (reply : Option (List Byte)) : List Notice :=
  .txnDone x.tag p o used reply ::
    match x.station with
    | none => []
    | some a =>
      match q.station a with
      | none => []
      | some e =>
        if (e.complete x.kind o).state = e.state then []
        else [.stationState p a (e.complete x.kind o).state (if o = .done then .reply else .failures)]

/-- The transaction in flight on port `p`, which stood as `q`, completed, and the port decided its next work
(R75). -/
abbrev Completes (s t : State) (p : PortId) (q : Port) (x : Txn) (o : TxnOutcome) (used : Nat)
    (reply : Option (List Byte)) : Prop :=
  Unanswered s t ∧ Reported s t (q.completionNotices p x o used reply) ∧ t.trim = s.trim ∧
  t.cmd.draining = s.cmd.draining ∧ t.cmd.live = s.cmd.live.filter (fun e => e.tag != x.tag) ∧
  (∀ p', p' ≠ p → t.port p' = s.port p') ∧ t.port p = Port.refresh (Port.nextWork (q.afterCompletion x o))

/-- The port with a failed attempt counted (R63). -/
def Port.failureCounted (q : Port) : Port :=
  { q with counters := { q.counters with attemptsFailed := satInc q.counters.attemptsFailed } }

/-- The attempt in flight on port `p`, which stood as `q`, failed with a cause (R63): it is counted, and the transaction
waits for its next attempt or completes with its last failure. -/
abbrev FailsAttempt (s t : State) (p : PortId) (q : Port) (r : TxnRun) (cause : FailCause) : Prop :=
  (r.used < r.limit → Quiet s t p ∧
    t.port p = Port.refresh (Port.beginIfIdle { q.failureCounted with
      inFlight := some ⟨if cause = .collided then .recovering else .waitingIdle,
        .txn { r with lastFailure := some cause }⟩
      line := q.line.ended })) ∧
  (r.limit ≤ r.used → Completes s t p q.failureCounted r.txn cause.outcome r.used none)

/-- A sweep with the result of one more code (R145). -/
def Sweep.tried (w : Sweep) (code : ThCode) (result : PassEntry) : Sweep :=
  { w with map := w.map.set code.toNat result, next := w.next + 1 }

/-- The port once its probe has ceased to be in flight, with the sweep record it then has (R145). -/
def Port.probeOver (q : Port) (w : Option Sweep) : Port := { q with inFlight := none, line := q.line.ended, sweep := w }

/-- The middle of a run of passing codes (R148). -/
def middleOf (run : SweepWindow) : Nat := run.start + (run.width - 1) / 2

/-- The station table once the complete sweep `w` has chosen: a run of three or more gives its station the middle code,
the origin SWEPT and the window (R53, R148). -/
def Sweep.write (w : Sweep) (stations : List Station) : List Station :=
  if 3 ≤ (chooseRun w.map).width then
    stations.map fun e =>
      if e.addr = w.station then
        { e with threshold := ⟨w.range, BitVec.ofNat 5 (middleOf (chooseRun w.map))⟩, origin := .swept
                 lastWindow := some (chooseRun w.map) }
      else e
  else stations

/-- How the complete sweep `w` ends: DONE with its code and run, or NO_WINDOW with the longest run found, if any
(R148, R150). -/
def Sweep.result (w : Sweep) : SweepEnd :=
  if 3 ≤ (chooseRun w.map).width then
    .done (middleOf (chooseRun w.map)) (chooseRun w.map).start (chooseRun w.map).width
  else .noWindow (if (chooseRun w.map).width = 0 then none else some (chooseRun w.map))

/-- The probe in flight on port `p`, which stood as `q` with the sweep `w`, ended with a result, and the port decided
its next work. While codes remain the sweep goes on; the result of code 31 completes it, and it chooses (R145,
R148). -/
abbrev ProbeEnds (s t : State) (p : PortId) (q : Port) (w : Sweep) (code : ThCode) (result : PassEntry) : Prop :=
  Unanswered s t ∧ OnlyPort s t p ∧
  (w.next ≠ 31 → Reported s t [] ∧
    t.port p = Port.refresh (Port.nextWork (q.probeOver (some (w.tried code result))))) ∧
  (w.next = 31 →
    Reported s t [.sweepDone p w.station w.range (w.tried code result).result (w.tried code result).map] ∧
    t.port p = Port.refresh (Port.nextWork
      { q.probeOver none with stations := (w.tried code result).write q.stations }))

/-- Room for the SWEEP_DONE that the result of code 31 brings. -/
abbrev State.RoomToEnd (s : State) (w : Sweep) : Prop := w.next = 31 → s.RoomFor 1

/-- The port as it stood, with a sample at the active level taken (R11, R83, R84). -/
def Port.sampled (q : Port) : Port :=
  { q with
    spoils := q.spoils ++ q.line.spoilWatch.toList
    line := { q.line with restCount := 0, lastSample := some .active, spoilWatch := none } }

/-- The sender gives a station's start bit on port `p`'s line, by itself or with its character, before any command that
shows the hub's next frame, the port's work ended or time passed: it is taken before the port engine's decision to send
(R11, R64, log 24). -/
abbrev State.StartFirst (s : State) (p : PortId) : Prop :=
  ∃ before c after, s.pending = before ++ c :: after ∧
    ((∃ l, c = .startBitAccepted p l) ∨ ∃ ch, c = .characterReceived p ch) ∧ ∀ x ∈ before, tellsNext p x = false

/-- Port `p` as the decision after a reply timeout finds it: with the first active sample of a start bit that is taken
first, and otherwise as it stood (R11, R64, R88). -/
abbrev State.AtTimeout (s : State) (p : PortId) (q : Port) : Prop :=
  s.StartFirst p ∧ q = (s.port p).sampled ∨ ¬ s.StartFirst p ∧ q = s.port p

/-- The port as it stood, with an accepted start bit taken (R3, R12, R14). -/
def Port.startTaken (q : Port) (atLimit : Bool) : Port :=
  { q.sampled with line := { q.sampled.line with
      receiver := .inCharacter
      gapRunning := false
      reply := match q.line.reply with
        | .running n => .held n atLimit
        | .stopped => .stopped
        | .held n l => .held n l } }

/-- The port at the end of a character's stop bit, before the assembler takes the character (R4, R14, log 9). -/
def Port.charEnded (q : Port) (c : RxChar) : Port :=
  let heard := if c.framing then q.sampled else q
  { heard with line := { heard.line with
      receiver := if c.framing then .waitRest else .hunting
      lastSample := some (if c.framing then .active else .rest)
      reply := match q.line.reply with
        | .held n _ => if c.mark then .stopped else .running n
        | .stopped => .stopped
        | .running n => .running n } }

/-- The port once a frame end has been reported: the assembler in HUNT, and a REPLY frame's noise charged to the
station its head names (R10, R94). -/
def Port.frameEnded (q : Port) (r : FrameRec) : Port :=
  { q with
    line := { q.line with assembler := .hunt, gapRunning := false }
    stations := if r.kind = .reply then
        q.stations.map fun e => if e.addr = r.addr then { e with noisy := satAdd e.noisy r.noisy } else e
      else q.stations }

/-- The port at the end of a marked character: a frame in assembly has ended INTERRUPTED (R10). -/
def Port.headArrived (q : Port) (c : RxChar) : Port :=
  match q.line.assembler with
  | .hunt => q.charEnded c
  | .assembling _ r => (q.charEnded c).frameEnded r

/-- The port once a head has opened its frame record, ending the frame that it interrupts, if any (R8, R10, R12). -/
def Port.headOpened (q : Port) (c : RxChar) : Port :=
  let arrived := q.headArrived c
  { arrived with line := { arrived.line with
      gapRunning := true
      assembler := .assembling .count
        { addr := addrOfHead c.data, kind := kindOfHead c.data, count := none, payload := [], checkLo := none,
          checkHi := none, framing := c.framing, noisy := if c.noisy then 1 else 0 } } }

/-- A head that port `p` takes now is outside any reply window: no exchange is in AWAITING, and none is in RECEIVING
with its frame in assembly, which the head would interrupt (R90). -/
abbrev Port.OutsideWindow (q : Port) : Prop :=
  ∀ f, q.inFlight = some f → f.phase ≠ .awaiting ∧ (f.phase = .receiving → q.line.assembler = .hunt)

/-- A stray frame counted (R93). -/
def Port.strayCounted (q : Port) : Port :=
  { q with counters := { q.counters with strays := satInc q.counters.strays } }

/-- The head `ch`, taken in AWAITING by an exchange with the station `target`, is not its reply head and quarantines no
station, and `q` is port `p` with what it counts: a stray frame, a first strike, or nothing more against a station with
two strikes (R44, R70, R89, R93). -/
abbrev State.NotTheReply (s : State) (p : PortId) (ch : RxChar) (target : Option Addr) (q : Port) : Prop :=
  ((kindOfHead ch.data ≠ .reply ∨
      (target ≠ some (addrOfHead ch.data) ∧ ((s.port p).headOpened ch).station (addrOfHead ch.data) = none)) ∧
    q = ((s.port p).headOpened ch).strayCounted) ∨
  (∃ e, kindOfHead ch.data = .reply ∧ target ≠ some (addrOfHead ch.data) ∧
    ((s.port p).headOpened ch).station (addrOfHead ch.data) = some e ∧ e.strikes = 0 ∧
    q = { (s.port p).headOpened ch with
      stations := ((s.port p).headOpened ch).stations.map fun x =>
        if x.addr = addrOfHead ch.data then { x with strikes := 1 } else x }) ∨
  (∃ e, kindOfHead ch.data = .reply ∧ target ≠ some (addrOfHead ch.data) ∧
    ((s.port p).headOpened ch).station (addrOfHead ch.data) = some e ∧ 2 ≤ e.strikes ∧
    q = (s.port p).headOpened ch)

/-- What the assembler awaits, and the frame record, once a byte that ends no frame has been added (R9). -/
def FrameRec.grown (r : FrameRec) (w : Awaited) (b : Byte) : Option (Awaited × FrameRec) :=
  match w with
  | .count => if b.toNat ≤ 48 then some (if b = 0 then .checkLow else .payload, { r with count := some b }) else none
  | .payload =>
    some (if r.count.map BitVec.toNat = some (r.payload.length + 1) then .checkLow else .payload,
      { r with payload := r.payload ++ [b] })
  | .checkLow => some (.checkHigh, { r with checkLo := some b })
  | .checkHigh => none

/-- The port once an unmarked character has been added to the frame in assembly, which goes on (R9, R12). -/
def Port.charAdded (q : Port) (c : RxChar) (w : Awaited) (r : FrameRec) : Port :=
  let ended := q.charEnded c
  { ended with line := { ended.line with gapRunning := true, assembler := .assembling w r } }

/-- The command `c` ends the frame that port `p` assembles, and no head follows (R9, R10): the second check character
completes it, the gap limit truncates it, or a COUNT over 48 overruns it. `r` is the record reported, `q` the port
then, and `good` says that the frame is COMPLETE with its check GOOD and no framing error. -/
abbrev State.FrameEnds (s : State) (p : PortId) (c : Instr) (q : Port) (r : FrameRec) (good : Bool) : Prop :=
  (∃ before ch, c = .characterReceived p ch ∧ (s.port p).line.receiver = .inCharacter ∧ ch.mark = false ∧
    (s.port p).line.assembler = .assembling .checkHigh before ∧
    r = { before.note ch with checkHi := some ch.data } ∧ q = ((s.port p).charEnded ch).frameEnded r ∧
    good = (!r.framing && r.checkGood)) ∨
  (∃ before ch, c = .characterReceived p ch ∧ (s.port p).line.receiver = .inCharacter ∧ ch.mark = false ∧
    (s.port p).line.assembler = .assembling .count before ∧ 48 < ch.data.toNat ∧
    r = { before.note ch with count := some ch.data } ∧ q = ((s.port p).charEnded ch).frameEnded r ∧ good = false) ∨
  (∃ w, c = .characterGapExpiry p ∧ (s.port p).line.assembler = .assembling w r ∧
    (s.port p).line.gapRunning = true ∧ q = (s.port p).frameEnded r ∧ good = false)

/-- The unmarked character `ch` reaches port `p` outside any frame, is added to the frame in assembly, or ends it;
`q` is the port then (R9, R10). -/
abbrev State.TakesUnmarked (s : State) (p : PortId) (ch : RxChar) (q : Port) : Prop :=
  (s.port p).line.receiver = .inCharacter ∧ ch.mark = false ∧
  (((s.port p).line.assembler = .hunt ∧ q = (s.port p).charEnded ch) ∨
   (∃ w before w' r, (s.port p).line.assembler = .assembling w before ∧
      (before.note ch).grown w ch.data = some (w', r) ∧ q = (s.port p).charAdded ch w' r) ∨
   (∃ r good, s.FrameEnds p (.characterReceived p ch) q r good))

/-- The in-flight transaction that the quarantine of station `a` ends (R45 step 1). -/
def Port.endedRun (q : Port) (a : Addr) : Option TxnRun :=
  match q.inFlight with
  | some ⟨_, .txn r⟩ => if r.txn.station = some a then some r else none
  | some ⟨_, .probe _⟩ => none
  | none => none

/-- The queued transactions that the quarantine of station `a` ends (R45 step 2). -/
def Port.endedQueue (q : Port) (a : Addr) : List Txn := q.queue.filter fun x => x.station == some a

/-- The notices of a second strike against station `a`, in R45's order (R44, R45, R46). -/
def Port.quarantineNotices (q : Port) (p : PortId) (a : Addr) : List Notice :=
  .stationState p a .quarantined .strike ::
    ((q.endedRun a).toList.map (fun r => .txnDone r.txn.tag p .stationQuarantined r.used none) ++
      ((q.endedQueue a).map (fun x => .txnDone x.tag p .stationQuarantined 0 none) ++
        match q.sweep with
        | some w => if w.station = a then [.sweepDone p a w.range (.abandoned .stationQuarantined) w.map] else []
        | none => []))

/-- The tags of the transactions that the quarantine of station `a` ends. -/
def Port.quarantineTags (q : Port) (a : Addr) : List Word16 :=
  (q.endedRun a).toList.map (fun r => r.txn.tag) ++ (q.endedQueue a).map Txn.tag

/-- The port after the quarantine of station `a`, its in-flight work left where it was (R44, R45 steps 2 and 3). -/
def Port.quarantined (q : Port) (a : Addr) : Port :=
  { q with
    stations := q.stations.map fun x => if x.addr = a then { x with strikes := 2, state := .quarantined } else x
    queue := q.queue.filter fun x => x.station != some a
    sweep := q.sweep.filter fun w => w.station != a }

/-- The second strike against station `a` of port `p`, which stood as `q`: its notices, the tags that are no longer
live, and the port become `after` (R44, R45). -/
abbrev Quarantines (s t : State) (p : PortId) (q : Port) (a : Addr) (after : Port) : Prop :=
  Unanswered s t ∧ Reported s t (q.quarantineNotices p a) ∧ t.trim = s.trim ∧ t.cmd.draining = s.cmd.draining ∧
  t.cmd.live = (s.cmd.live.filter fun e => !((q.quarantineTags a).contains e.tag)) ∧
  (∀ p', p' ≠ p → t.port p' = s.port p') ∧ t.port p = after.refresh

/-- The port after entry to FAULTED (R28, R38). -/
def Port.faultedWith (q : Port) (cause : FaultCause) : Port :=
  { q with
    state := .faulted cause, timer := .stopped, inFlight := none, queue := [], sweep := none, lateReply := none
    claim := .none
    claimKind := if q.claim = .none then q.claimKind else none
    toTrim := q.toTrim ++ q.withdrawals
    line := { q.line with
      receiver := .off, assembler := .hunt, restCount := 0, lastSample := none, gapRunning := false,
      turnaround := none, reply := .stopped, driver := .disabled, sending := [], threshold := ⟨.low, 20⟩,
      spoilWatch := none } }

/-- Port `p`, which stood as `q`, entered FAULTED: PORT_STATE, then the flush's notices; its tags are no longer live,
and the port becomes `after` (R28). -/
abbrev FaultsInto (s t : State) (p : PortId) (q : Port) (cause : FaultCause) (tc : TransCause) (after : Port) : Prop :=
  Unanswered s t ∧
  Reported s t (.portState p (.faulted cause) tc :: q.flushNotices p .portFaulted .portFaulted) ∧
  t.trim = s.trim ∧ t.cmd.draining = s.cmd.draining ∧
  t.cmd.live = (s.cmd.live.filter fun e => !(q.tags.contains e.tag)) ∧
  (∀ p', p' ≠ p → t.port p' = s.port p') ∧ t.port p = after.refresh

/-- Port `p` has taken the final outcome of its window, and the closure that follows has not reached it (R123, R126):
the closure is on its way, or the acknowledgement that brings it. -/
abbrev State.Closing (s : State) (p : PortId) : Prop :=
  (s.port p).claim = .window ∧
  (.closure (s.port p).claimNumber false ∈ (s.port p).fromTrim ∨
    .acknowledge (s.port p).claimNumber ∈ (s.port p).toTrim ∧
      ∃ r start o changed, s.trim.holder = some ⟨r, .ending start o changed⟩ ∧ r.port = p ∧
        r.number = (s.port p).claimNumber ∧ o ≠ .spoiled)

/-- The port `p` once its quick-cal timer has expired (R114, R135): with the claim NONE an AUTO QUICK request is handed
over, and with any other claim the expiry is dropped. -/
def Port.timedOut (q : Port) (p : PortId) : Port :=
  if q.claim = .none then
    { q with
      timer := .expired
      claim := .queued
      claimNumber := q.claimNumber + 1
      claimKind := some .quick
      toTrim := q.toTrim ++ [.request ⟨p, .quick, .auto, 1, q.claimNumber + 1⟩] }
  else { q with timer := .expired }

/-- What `n` milliseconds do to the quick-cal timer of port `p` (R133, R135). A running timer counts down; one that
reaches 0 before they have passed has expired; one that reaches 0 as they end stands at 0 until its expiry is taken, and
so does one whose port awaits the closure of a final outcome (log 8). -/
abbrev TimePasses (s t : State) (p : PortId) (n : Nat) : Prop :=
  (∀ ms, (s.port p).timer = .running ms → (n ≤ ms ∨ s.Closing p) →
    t.port p = Port.refresh { s.port p with timer := .running (ms - n) }) ∧
  (∀ ms, (s.port p).timer = .running ms → ms < n → ¬ s.Closing p →
    t.port p = ((s.port p).timedOut p).refresh) ∧
  ((∀ ms, (s.port p).timer ≠ .running ms) → t.port p = (s.port p).refresh)

/-- The moves of R26: the state an outcome finds, the outcome, the state it leaves, and the cause of its PORT_STATE,
absent where the state stays. The move to FAULTED stands apart. -/
def windowMoves : List (PortState × WindowOutcome × PortState × Option TransCause) :=
  [(.trimming .full, .done, .ready, some .trimmed),
   (.trimming .full, .rail, .degraded, some .rail),
   (.trimming .quick, .done, .ready, some .trimmed),
   (.trimming .quick, .rail, .degraded, some .rail),
   (.trimming .quick, .failed, .degraded, some .calFailed),
   (.ready, .done, .ready, none),
   (.ready, .rail, .degraded, some .rail),
   (.ready, .failed, .degraded, some .calFailed),
   (.degraded, .done, .ready, some .recovered),
   (.degraded, .rail, .degraded, none),
   (.degraded, .failed, .degraded, none)]

/-- The QUICK counters after a final outcome (R36). -/
def PortCounters.counted (c : PortCounters) (kind : CalKind) (o : WindowOutcome) : PortCounters :=
  if kind = .full then c
  else if o = .done then { c with quickDone := satInc c.quickDone }
  else { c with quickFailed := satInc c.quickFailed }

/-- A sweep told of a trim change (R147): restarted, or gone at the third. -/
def sweepAfterChange : Option Sweep → Option Sweep
  | none => none
  | some w =>
    if w.restarts < 2 then
      some { w with map := List.replicate 32 .untried, next := 0, restarts := w.restarts + 1 }
    else none

/-- The SWEEP_DONE of a third trim change (R147, R149). -/
def changeNotices (p : PortId) : Option Sweep → List Notice
  | none => []
  | some w => if w.restarts < 2 then [] else [.sweepDone p w.station w.range (.abandoned .trimChanged) w.map]

/-- The trim unit with a free reference, once it has granted the head of `queue` (R117). -/
def TrimUnit.granting (u : TrimUnit) (queue : List Request) : TrimUnit :=
  match queue with
  | [] => { u with queue := [], holder := none }
  | r :: rest => { u with queue := rest, holder := some ⟨r, .granted⟩ }

/-- The grant that the head of `queue` gets, if it is port `p`'s (R117). -/
def grantsTo (queue : List Request) (p : PortId) : List TrimMsg :=
  match queue with
  | [] => []
  | r :: _ => if r.port = p then [.granted r.number] else []

/-- The CAL_DONE of a final outcome, where R128 requires one, with the codes as they stand. -/
def calNotices (r : Request) (o : CalOutcome) (codes : Trim) : List Notice :=
  if r.kind = .full ∨ r.origin = .host ∨ o ≠ .done then [.calDone r o codes] else []

/-- The hub after the trim unit has released the reference: nothing answered, `ns` reported, the head of `queue`
granted, and port `p` become `after` before any grant reaches it (R117, R123, R124). -/
abbrev Releases (s t : State) (p : PortId) (ns : List Notice) (queue : List Request) (after : Port) : Prop :=
  Unanswered s t ∧ Reported s t ns ∧ t.cmd = s.cmd ∧ t.trim = s.trim.granting queue ∧
  t.port p = Port.refresh { after with fromTrim := after.fromTrim ++ grantsTo queue p } ∧
  ∀ p', p' ≠ p →
    (grantsTo queue p' = [] → t.port p' = s.port p') ∧
    (grantsTo queue p' ≠ [] →
      t.port p' = Port.refresh { s.port p' with fromTrim := (s.port p').fromTrim ++ grantsTo queue p' })

/-- A FULL measurement carried on for up to `n` comparisons, each answered by a comparator for which `right` holds the
legs' right codes (R119). -/
def measureFull (right : Trim) : Nat → State → Host.Outcome State Fault Refusal
  | 0, s => .next s
  | n + 1, s =>
    match s.trim.holder with
    | some ⟨r, .measuring _ (.full leg _ _)⟩ =>
      match exec (.comparisonDecided
          (if (right.get leg).toNat < ((s.codes r.port).get leg).toNat then .below else .notBelow)) s with
      | .next t => measureFull right n t
      | .fault e => .fault e
      | .refused e => .refused e
    | _ => .next s

/-- A field of a command's BODY: its place, its width in bytes, low byte first (R163), and the ranges of values that
it may hold (R164). -/
structure FieldRange where
  place  : Nat
  width  : Nat
  ranges : List (Nat × Nat)

/-- A one-byte field whose values run from `low` to `high`. -/
def byteField (place low high : Nat) : FieldRange := ⟨place, 1, [(low, high)]⟩

/-- The field holds a value of its ranges. -/
def FieldRange.holds (r : FieldRange) (body : List Byte) : Bool :=
  let v := ((body.drop r.place).take r.width).foldr (fun b acc => acc * 256 + b.toNat) 0
  r.ranges.any fun range => decide (range.1 ≤ v ∧ v ≤ range.2)

/-- A command's line of R164: its command, the KIND that carries it, its body lengths, whether byte 0 names a port, and
the forms its other fields may take. -/
structure HostRow where
  command   : Instr
  kind      : Nat
  least     : Nat
  most      : Nat
  namesPort : Bool
  forms     : List (List FieldRange)

/-- Every field is in range: the body has one of the line's forms (R165 step 4). -/
def HostRow.inRange (row : HostRow) (body : List Byte) : Bool :=
  row.forms.any fun form => form.all fun field => field.holds body

/-- The address byte of a station command (R164). -/
def addressField : FieldRange := byteField 1 1 63

/-- The fields that SUBMIT's three kinds share: tag, class, attempts (R58). -/
def submitFields : List FieldRange := [⟨1, 2, [(1, 65535)]⟩, byteField 4 1 2, byteField 6 0 4]

/-- Lines of R164. -/
def hostRowsFirst : List HostRow :=
  [⟨.identify, 1, 0, 0, false, [[]]⟩,
   ⟨.hubStatus, 2, 0, 0, false, [[]]⟩,
   ⟨.hubReset, 3, 0, 0, false, [[]]⟩,
   ⟨.setDrift, 4, 4, 4, false, [[⟨0, 2, [(0, 20000)]⟩, ⟨2, 2, [(0, 50000)]⟩]]⟩,
   ⟨.portEnable, 5, 5, 5, true, [[byteField 1 0 5, byteField 2 2 15, byteField 3 1 255, byteField 4 1 4]]⟩,
   ⟨.portDisable, 6, 1, 1, true, [[]]⟩,
   ⟨.portReset, 7, 1, 1, true, [[]]⟩]

/-- Lines of R164. -/
def hostRowsSecond : List HostRow :=
  [⟨.portStatus, 8, 1, 1, true, [[]]⟩,
   ⟨.setTermination, 9, 5, 5, true, [[byteField 1 0 7, byteField 2 0 7, byteField 3 0 7, byteField 4 0 1]]⟩,
   ⟨.calibrate, 11, 2, 2, true, [[byteField 1 1 2]]⟩,
   ⟨.addStation, 12, 4, 4, true, [[addressField, byteField 2 1 2, ⟨3, 1, [(0, 31), (255, 255)]⟩]]⟩,
   ⟨.removeStation, 13, 2, 2, true, [[addressField]]⟩,
   ⟨.releaseStation, 14, 2, 2, true, [[addressField]]⟩]

/-- Lines of R164. SUBMIT's forms are a REQUEST's, a POST's and a BROADCAST's (R58). -/
def hostRowsThird : List HostRow :=
  [⟨.setThreshold, 15, 4, 4, true, [[addressField, byteField 2 1 2, byteField 3 0 31]]⟩,
   ⟨.stationStatus, 16, 2, 2, true, [[addressField]]⟩,
   ⟨.sweep, 17, 3, 3, true, [[addressField, byteField 2 1 2]]⟩,
   ⟨.submit, 18, 8, 56, true,
     [submitFields ++ [byteField 3 1 1, byteField 5 1 63, byteField 7 0 48],
      submitFields ++ [byteField 3 2 2, byteField 5 1 63, byteField 7 0 0],
      submitFields ++ [byteField 3 3 3, byteField 5 0 0, byteField 7 0 0]]⟩,
   ⟨.cancel, 19, 2, 2, false, [[⟨0, 2, [(1, 65535)]⟩]]⟩,
   ⟨.queueList, 20, 1, 1, true, [[]]⟩]

/-- The lines of R164 but for DOZE, whose KIND carries two rows of the table (log 13). -/
def hostRows : List HostRow := hostRowsFirst ++ hostRowsSecond ++ hostRowsThird

/-- A transaction that a SUBMIT can carry (R56, R58). -/
abbrev Txn.Submittable (x : Txn) : Prop :=
  x.tag ≠ 0 ∧ x.attempts ≤ 4 ∧ x.payload.length ≤ 48 ∧
  ((x.kind = .request ∧ (∃ a, x.station = some a ∧ a ≠ 0) ∧ ∃ n, x.replyLimit = some n ∧ n ≤ 48) ∨
   (x.kind = .post ∧ (∃ a, x.station = some a ∧ a ≠ 0) ∧ x.replyLimit = none) ∨
   (x.kind = .broadcast ∧ x.station = none ∧ x.replyLimit = none))

/-- SUBMIT's BODY for a transaction, byte by byte: port, tag low and high, kind, class, station or 0, attempts or 0 for
absent, reply limit or 0, payload (R58, R163, R164). -/
def Txn.submitBody (x : Txn) (p : PortId) : List Byte :=
  [BitVec.ofNat 8 p.val, x.tag.setWidth 8, (x.tag >>> 8).setWidth 8,
   (match x.kind with
    | .request => 1
    | .post => 2
    | .broadcast => 3),
   (match x.cls with
    | .normal => 1
    | .expedited => 2),
   (x.station.getD 0).setWidth 8, BitVec.ofNat 8 x.attempts, BitVec.ofNat 8 (x.replyLimit.getD 0)] ++ x.payload

/-- A run is safe if it never stops: every command answers a next state (log 3). -/
abbrev Continues (o : Host.Outcome State Fault Refusal) : Prop := ∃ t, o = .next t

end Sys2Proof.Machine
end

