-- ==== Sys2Proof/Certificates/Slice0/Obligations.lean ====
section
/-! DEFINITION. The statements for the provers, one definition each; OBLIGATIONS.json lists them with their rules. -/

open Sys2Proof Sys2Proof.Machine

/-! ### The queue of commands -/

/-- A step takes the command at the front of the queue and runs it on the state with the queue's rest. -/
def Obligations.StepRunsFrontCommand : Prop :=
  ∀ (c : Instr) (rest : List Instr) (s : State),
    s.pending = c :: rest → step s = exec c { s with pending := rest }

/-- The model's choice for an empty queue (log 8): a running hub lets one millisecond pass for its quick-cal timers, a
timer that had run out before it expires, and a hub that does not run idles. -/
def Obligations.IdleStepPassesOneMillisecond : Prop :=
  ∀ s : State, s.pending = [] →
    ∃ t, step s = .next t ∧ (s.power ≠ .running → t = s) ∧
      (s.power = .running →
        t.power = s.power ∧ t.link = s.link ∧ t.cmd = s.cmd ∧ t.trim = s.trim ∧ t.pending = [] ∧
        ∀ p, TimePasses s t p 1)

/-- Every command answers a next state, whatever the state (log 3), and leaves the queue of commands as it was. -/
def Obligations.EveryCommandAnswersNext : Prop :=
  ∀ (c : Instr) (s : State), ∃ t, exec c s = .next t ∧ t.pending = s.pending

/-! ### Resets and start-up -/

/-- POWER_ON, and RESET_N_ASSERT in any state, put every block at its power-on values. That the link rate of an earlier
start-up goes with them is the model's choice (log 12). -/
def Obligations.ResetsHoldPowerOnValues : Prop :=
  ∀ s : State,
    exec .powerOn s = .next { State.reset with pending := s.pending } ∧
    exec .resetNAssert s = .next { State.reset with pending := s.pending } ∧
    State.reset.link.inbound = [] ∧ State.reset.link.responses = [] ∧ State.reset.link.notices = [] ∧
    State.reset.link.lost = 0 ∧ State.reset.link.tx = .idle ∧ State.reset.cmd.live = [] ∧
    State.reset.trim.queue = [] ∧ State.reset.trim.holder = none ∧ State.reset.trim.dT = 0 ∧
    State.reset.trim.dV = 0 ∧ State.reset.trim.interval = 60000 ∧
    ∀ p, (State.reset.port p).state = .off ∧ (State.reset.port p).settings = ⟨0, 2, 8, 1⟩ ∧
      (State.reset.port p).counters = ⟨0, 0, 0, 0, 0, 0⟩ ∧ (State.reset.port p).collisionRun = 0 ∧
      (State.reset.port p).queue = [] ∧ (State.reset.port p).inFlight = none ∧ (State.reset.port p).sweep = none ∧
      (State.reset.port p).claim = .none ∧ (State.reset.port p).claimNumber = 0 ∧
      (State.reset.port p).timer = .stopped ∧ (State.reset.port p).profile = ⟨none, none, none, false⟩ ∧
      (State.reset.port p).selected = ⟨.highZ, 0⟩ ∧ (State.reset.port p).lateReply = none ∧
      (State.reset.port p).stations = [] ∧ (State.reset.port p).line.receiver = .off ∧
      (State.reset.port p).line.assembler = .hunt ∧ (State.reset.port p).line.restCount = 0 ∧
      (State.reset.port p).line.stuck = .stopped ∧ (State.reset.port p).line.driver = .released ∧
      (State.reset.port p).line.threshold = ⟨.low, 20⟩ ∧ (State.reset.port p).line.trim = ⟨32, 32, 32⟩

/-- The release of RESET_N begins start-up with the LINKSEL rate and every other power-on value; the end of start-up
sends HUB_READY as notice number 0, with the framer in HUNT and the receiver waiting for a high RXD. -/
def Obligations.StartUpEndsWithHubReady : Prop :=
  (∀ (s : State) (sel : BitVec 2), s.power = .heldReset →
    exec (.resetNRelease sel) s = .next
      { State.reset with power := .startUp .power, link := { State.reset.link with rate := sel },
                         pending := s.pending }) ∧
  (∀ (s : State) (sel : BitVec 2) (c : StartCause), s.power = .startUp c →
    s.link = { State.reset.link with rate := sel } → s.cmd.draining = false →
    ∃ t, exec .startUpEnd s = .next t ∧ t.power = .running ∧ t.pending = s.pending ∧ SameBlocks s t ∧
      t.link = { State.reset.link with rate := sel, receiver := .waitHigh, framer := .hunt, nextNotice := 1,
                                       tx := .notice ⟨0, .hubReady c⟩ })

/-- HUB_RESET is answered OK and stops the taking of commands: no host command then changes anything. When its response
has left, the reset puts every block at its power-on values and start-up follows with cause COMMAND. -/
def Obligations.HubResetDrainsThenResets : Prop :=
  (∀ (s : State) (f : HostFrame), s.Takes f → f.kind = 0x03 → f.body = [] →
    ∃ t, exec .hubReset s = .next t ∧ Answered s t f .ok [] ∧ Reported s t [] ∧
      t.cmd = ⟨s.cmd.live, true⟩ ∧ t.trim = s.trim ∧ ∀ p, t.port p = s.port p) ∧
  (∀ (s : State), s.cmd.draining = true →
    (∀ row ∈ hostRows, exec row.command s = .next s) ∧ exec .dozeEnter s = .next s ∧
    exec .dozeLeave s = .next s ∧ exec .unknownCommand s = .next s) ∧
  (∀ (s : State) (sel : BitVec 2), s.power = .running → s.cmd.draining = true → s.link.responses = [] →
    (∀ n, s.link.tx ≠ .notice n) →
    exec (.hubResetCarriedOut sel) s = .next
      { State.reset with power := .startUp .command, link := { State.reset.link with rate := sel },
                         pending := s.pending })

/-! ### The host link -/

/-- A host-link byte is ten bits, start low, eight data bits least significant first, stop high; its samples give the
byte back, and a low stop bit a framing error or, from twenty bit times, a break. TXD carries the bits of the frame
being sent and is high after them and while IDLE. The bytes of any host-link frame with a BODY of 0 to 60 bytes,
received one after another by a hunting receiver whose framer is in HUNT, put exactly that frame at the tail of the
inbound buffer and leave the framer in HUNT. -/
def Obligations.FrameBytesEnterTheBuffer : Prop :=
  (∀ b : Byte,
    hostByteBits b = [false, b.getLsbD 0, b.getLsbD 1, b.getLsbD 2, b.getLsbD 3, b.getLsbD 4, b.getLsbD 5,
      b.getLsbD 6, b.getLsbD 7, true] ∧
    ∀ (data : Vector Bool 8) (low : Nat), (∀ i : Fin 8, data.get i = b.getLsbD i.val) →
      hostByteEvent data true low = .hostByteReceived b) ∧
  (∀ (data : Vector Bool 8) (low : Nat),
    (low < 20 → hostByteEvent data false low = .charFraming) ∧
    (20 ≤ low → hostByteEvent data false low = .linkBreak)) ∧
  (∀ tx : Tx, tx.bits = (tx.bytes.map hostByteBits).flatten ∧
    (∀ k bit, tx.bits[k]? = some bit → tx.level k = bit) ∧ (∀ k, tx.bits.length ≤ k → tx.level k = true) ∧
    (tx = .idle → ∀ k, tx.level k = true)) ∧
  (∀ (s : State) (kind seq : Byte) (body : List Byte),
    s.power = .running → s.link.receiver = .hunting → s.link.framer = .hunt →
    s.link.inbound.length < 4 → body.length ≤ 60 →
    runAll ((hostFrameBytes kind seq body).map Instr.hostByteReceived) s = .next
      { s with link := { s.link with gapRunning := false, inbound := s.link.inbound ++ [⟨kind, seq, body⟩] } })

/-- A byte abandons the frame with one LINK_ERROR when LEN is out of range, when the check differs, and when a good
frame finds four in the buffer; outside a frame any byte but A5h is discarded. -/
def Obligations.BadBytesAbandonTheFrame : Prop :=
  ∀ (s : State) (b : Byte), s.power = .running → s.link.receiver = .hunting →
    (s.link.framer = .hunt → b ≠ 0xA5 →
      exec (.hostByteReceived b) s = .next { s with link := { s.link with gapRunning := false } }) ∧
    ∀ cause : LinkCause, s.RoomFor 1 →
      ((cause = .length ∧ s.link.framer = .length ∧ (b.toNat < 2 ∨ 62 < b.toNat)) ∨
       (∃ len kind seq body low, s.link.framer = .checkHigh len kind seq body low ∧
         ((cause = .check ∧ checkOf (len :: kind :: seq :: body) ≠ word low b) ∨
          (cause = .overflow ∧ checkOf (len :: kind :: seq :: body) = word low b ∧
            4 ≤ s.link.inbound.length)))) →
      ∃ t, exec (.hostByteReceived b) s = .next t ∧ t.power = s.power ∧ t.pending = s.pending ∧ SameBlocks s t ∧
        t.link.rate = s.link.rate ∧ t.link.receiver = s.link.receiver ∧ t.link.framer = .hunt ∧
        t.link.gapRunning = false ∧ t.link.inbound = s.link.inbound ∧ t.link.answers = s.link.answers ∧
        Reported s t [.linkError cause]

/-- What the receiver and the gap timer report: a framing error and the gap limit abandon a frame and are nothing in
HUNT; a break returns the framer to HUNT from any state with one LINK_ERROR and waits for RXD to be high again. -/
def Obligations.LinkErrorsReturnToHunt : Prop :=
  (∀ s : State, s.power = .running → s.link.framer = .hunt →
    (s.link.receiver = .hunting → exec .charFraming s = .next s) ∧ exec .hostGapTimeout s = .next s) ∧
  (∀ (s : State) (c : Instr) (cause : LinkCause) (after : HostReceiver), s.power = .running → s.RoomFor 1 →
    ((c = .charFraming ∧ cause = .charFraming ∧ s.link.receiver = .hunting ∧ after = .hunting ∧
        s.link.framer ≠ .hunt) ∨
     (c = .linkBreak ∧ cause = .brk ∧ s.link.receiver = .hunting ∧ after = .waitHigh) ∨
     (c = .hostGapTimeout ∧ cause = .gap ∧ s.link.gapRunning = true ∧ s.link.framer ≠ .hunt ∧
        after = s.link.receiver)) →
    ∃ t, exec c s = .next t ∧ t.power = s.power ∧ t.pending = s.pending ∧ SameBlocks s t ∧
      t.link.rate = s.link.rate ∧ t.link.receiver = after ∧ t.link.framer = .hunt ∧ t.link.gapRunning = false ∧
      t.link.inbound = s.link.inbound ∧ t.link.answers = s.link.answers ∧ Reported s t [.linkError cause]) ∧
  (∀ s : State, s.power = .running → s.link.receiver = .waitHigh →
    exec .rxdReturnsHigh s = .next { s with link := { s.link with receiver := .hunting } })

/-- At the end of a frame the transmitter takes the oldest response, or else the oldest notice, or nothing; a place
freed in a full notice queue goes to NOTICES_LOST when the lost count is above 0. -/
def Obligations.TransmitterTakesResponsesFirst : Prop :=
  ∀ s : State, s.power = .running → s.link.tx ≠ .idle →
    (∀ r rest, s.link.responses = r :: rest →
      exec .txFrameEnd s = .next { s with link := { s.link with responses := rest, tx := .response r } }) ∧
    (s.link.responses = [] → (s.cmd.draining = true ∨ s.link.notices = []) →
      exec .txFrameEnd s = .next { s with link := { s.link with tx := .idle } }) ∧
    (∀ n rest, s.link.responses = [] → s.cmd.draining = false → s.link.notices = n :: rest →
      ((s.link.notices.length ≠ 32 ∨ s.link.lost = 0) →
        exec .txFrameEnd s = .next { s with link := { s.link with notices := rest, tx := .notice n } }) ∧
      (s.link.notices.length = 32 → s.link.lost ≠ 0 →
        exec .txFrameEnd s = .next
          { s with link := { s.link with notices := rest ++ [⟨s.link.nextNotice, .noticesLost s.link.lost⟩],
                                         nextNotice := s.link.nextNotice + 1, lost := 0, tx := .notice n } }))

/-- While the transmitter is busy, a posted notice enters a queue of fewer than 32 at its tail with the next number,
and finds a queue of 32 full and only raises the lost count, which stops at 65535. -/
def Obligations.PostedNoticesAreNumberedOrCounted : Prop :=
  ∀ (n : Notice) (s : State), s.link.tx ≠ .idle →
    (s.link.notices.length < 32 → (postNotice n s) =
      { s with link := { s.link with notices := s.link.notices ++ [⟨s.link.nextNotice, n⟩],
                                     nextNotice := s.link.nextNotice + 1 } }) ∧
    (32 ≤ s.link.notices.length → (postNotice n s) =
      { s with link := { s.link with
          lost := if s.link.lost = 0xFFFF then s.link.lost else s.link.lost + 1 } })

/-! ### Host commands -/

/-- The common checks of R165 in their order: a KIND that names no command is answered UNKNOWN_COMMAND with KIND 80h and
its own SEQ; a BODY of a length other than R164's is refused BAD_LENGTH; then, in a frame of the right length, a port
byte above 7 is refused BAD_PORT before any value is looked at; and then a field outside its range in R164, or one of
R58's cases of SUBMIT, is refused BAD_VALUE. Nothing else comes of such a frame. -/
def Obligations.KindLengthAndPortAreChecked : Prop :=
  (∀ (s : State) (f : HostFrame), s.Takes f → (f.kind.toNat < 1 ∨ 20 < f.kind.toNat) →
    ∃ t, exec .unknownCommand s = .next t ∧ t.power = s.power ∧ t.pending = s.pending ∧ SameReceiver s t ∧
      t.link.inbound = s.link.inbound.tail ∧
      t.link.answers = s.link.answers ++ [⟨0x80, f.seq, .unknownCommand, []⟩] ∧ Reported s t [] ∧ SameBlocks s t) ∧
  (∀ row ∈ hostRows, ∀ (s : State) (f : HostFrame), s.Takes f → f.kind.toNat = row.kind →
    ((f.body.length < row.least ∨ row.most < f.body.length) →
      ∃ t, exec row.command s = .next t ∧ Refused s t f .badLength) ∧
    (row.namesPort = true → ∀ (b : Byte) (rest : List Byte), f.body = b :: rest → row.least ≤ f.body.length →
      f.body.length ≤ row.most → 7 < b.toNat → ∃ t, exec row.command s = .next t ∧ Refused s t f .badPort) ∧
    (row.least ≤ f.body.length → f.body.length ≤ row.most →
      (row.namesPort = true → ∃ b rest, f.body = b :: rest ∧ b.toNat ≤ 7) → row.inRange f.body = false →
      ∃ t, exec row.command s = .next t ∧ Refused s t f .badValue)) ∧
  (∀ (s : State) (f : HostFrame), s.Takes f → f.kind = 0x0A →
    (f.body.length ≠ 2 →
      ∃ t, exec (if f.body[1]? = some 2 then .dozeLeave else .dozeEnter) s = .next t ∧ Refused s t f .badLength) ∧
    (∀ b d : Byte, f.body = [b, d] → 7 < b.toNat →
      ∃ t, exec (if d = 2 then .dozeLeave else .dozeEnter) s = .next t ∧ Refused s t f .badPort) ∧
    (∀ b d : Byte, f.body = [b, d] → b.toNat ≤ 7 → d ≠ 1 → d ≠ 2 →
      ∃ t, exec .dozeEnter s = .next t ∧ Refused s t f .badValue))

/-- The status commands answer OK with the data of their layouts, byte by byte, and change nothing in any block. The
layouts of PORT_STATUS and the codes are those of PortStatusBytesStandInPlace. -/
def Obligations.StatusCommandsOnlyReport : Prop :=
  ∀ (s : State) (f : HostFrame), s.Takes f →
    (f.kind = 0x01 → f.body = [] →
      ∃ t, exec .identify s = .next t ∧ Answered s t f .ok [0xB4, 0x48, 0x01, 3, 8, 16, 16] ∧ Reported s t [] ∧
        SameBlocks s t) ∧
    (f.kind = 0x02 → f.body = [] →
      ∃ t, exec .hubStatus s = .next t ∧
        Answered s t f .ok
          ((match s.trim.holder with
            | some h => [portByte h.request.port, h.phase.code]
            | none => [0xFF, 0x00])
          ++ [byte s.trim.queue.length] ++ leNat s.trim.dT ++ leNat s.trim.dV ++ leNat s.trim.interval
          ++ [byte s.link.notices.length] ++ le s.link.lost ++ [byte s.cmd.live.length]
          ++ (s.trim.queue.map fun r => [portByte r.port, r.kind.code, r.origin.code, byte r.attempt]).flatten) ∧
        Reported s t [] ∧ SameBlocks s t) ∧
    (∀ p, f.kind = 0x08 → f.body = [portByte p] →
      ∃ t, exec .portStatus s = .next t ∧ Answered s t f .ok (portStatusData s p) ∧ Reported s t [] ∧
        SameBlocks s t) ∧
    (∀ p (a : Addr), f.kind = 0x10 → f.body = [portByte p, a.setWidth 8] → a ≠ 0 →
      ∃ t, exec .stationStatus s = .next t ∧ Reported s t [] ∧ SameBlocks s t ∧
        ((s.port p).station a = none → Answered s t f .unknownStation []) ∧
        ∀ before e after, (s.port p).stations = before ++ e :: after → e.addr = a → (∀ x ∈ before, x.addr ≠ a) →
          Answered s t f .ok
            ([byte (before.length + 1), a.setWidth 8, e.state.code, e.failureRun, byte e.strikes,
              e.threshold.range.code, e.threshold.code.setWidth 8, e.origin.code]
            ++ (match e.lastWindow with
              | some w => [byte w.start, byte w.width]
              | none => [0, 0])
            ++ le e.completed ++ le e.failed ++ le e.late ++ le e.noisy)) ∧
    (∀ p, f.kind = 0x14 → f.body = [portByte p] →
      ∃ t, exec .queueList s = .next t ∧
        Answered s t f .ok
          ((match (s.port p).inFlight with
            | some ⟨_, .txn r⟩ => le r.txn.tag
            | some ⟨_, .probe _⟩ => [0, 0]
            | none => [0, 0])
          ++ [byte (s.port p).queue.length] ++ ((s.port p).queue.map fun x => le x.tag).flatten) ∧
        Reported s t [] ∧ SameBlocks s t)

/-- The BODY of a PORT_STATUS response has 39 bytes, each at the place R168 gives it; byte 0 is the result. Every notice
is sent with its KIND, its number as SEQ and the BODY that R170 lays out, the pass map among it bit by bit. The names
have the codes of R163 and R166, and a two-byte field has its low byte first. -/
def Obligations.PortStatusBytesStandInPlace : Prop :=
  (∀ (s : State) (f : HostFrame) (p : PortId),
    let q := s.port p
    let d := Response.body ⟨f.kind + 0x80, f.seq, .ok, portStatusData s p⟩
    d.length = 39 ∧ d[0]? = some 0x00 ∧ d[1]? = some q.state.code ∧ d[2]? = some q.state.qualifier ∧
    d.extract 3 7 = [q.settings.rate, q.settings.gap, q.settings.timeout, q.settings.attempts] ∧
    d.extract 7 10 = [q.line.trim.pu.setWidth 8, q.line.trim.pd.setWidth 8, q.line.trim.tc.setWidth 8] ∧
    d.extract 10 12 = [q.selected.role.code, q.selected.value.setWidth 8] ∧
    d.extract 12 16 = [roleByte q.profile.park, roleByte q.profile.nominal, roleByte q.profile.listen,
      flagByte q.profile.hold] ∧
    d[16]? = some (byte q.queue.length) ∧ d.extract 17 19 = le q.inFlightTag ∧ d.extract 19 21 = sweepBytes q.sweep ∧
    d[21]? = some q.claim.code ∧ d[22]? = some (optCode ((s.claimedKind p).map CalKind.code)) ∧
    d[23]? = some q.timer.code ∧ d.extract 24 26 = leNat q.timer.remaining ∧
    d.extract 26 38 = le q.counters.framesSent ++ le q.counters.attemptsFailed ++ le q.counters.collisions ++
      le q.counters.strays ++ le q.counters.quickDone ++ le q.counters.quickFailed ∧
    d[38]? = some (byte q.collisionRun)) ∧
  (∀ r : Response, (Tx.response r).bytes = hostFrameBytes r.kind r.seq (r.result.code :: r.data)) ∧
  (∀ (number : Byte) (n : Notice), (Tx.notice ⟨number, n⟩).bytes = hostFrameBytes n.kind number n.body) ∧
  (∀ c : StartCause, (Notice.hubReady c).kind = 0x40 ∧ (Notice.hubReady c).body = [c.code]) ∧
  (∀ tag p (o : TxnOutcome) used (payload : List Byte),
    (Notice.txnDone tag p o used none).kind = 0x41 ∧ (Notice.txnDone tag p o used (some payload)).kind = 0x41 ∧
    (Notice.txnDone tag p o used none).body = le tag ++ [portByte p, o.code, byte used, 0] ∧
    (Notice.txnDone tag p o used (some payload)).body =
      le tag ++ [portByte p, o.code, byte used, byte payload.length] ++ payload) ∧
  (∀ (r : Request) (o : CalOutcome) (codes : Trim), (Notice.calDone r o codes).kind = 0x42 ∧
    (Notice.calDone r o codes).body =
      [portByte r.port, r.kind.code, r.origin.code, o.code, byte r.attempt, codes.pu.setWidth 8, codes.pd.setWidth 8,
        codes.tc.setWidth 8]) ∧
  (∀ p (a : Addr) (range : ThRange) (how : SweepEnd) (map : List PassEntry),
    let n := Notice.sweepDone p a range how map
    n.kind = 0x43 ∧ n.body.length = 12 ∧
    n.body.take 8 = [portByte p, a.setWidth 8, range.code] ++ (match how with
      | .done code start width => [1, 0, byte code, byte start, byte width]
      | .noWindow (some w) => [2, 0, 0xFF, byte w.start, byte w.width]
      | .noWindow none => [2, 0, 0xFF, 0, 0]
      | .abandoned c => [3, c.code, 0xFF, 0, 0]) ∧
    ∀ i, i < 32 → ∃ b, n.body[8 + i / 8]? = some b ∧ b.getLsbD (i % 8) = decide (map[i]? = some .pass)) ∧
  (∀ p (st : PortState) (c : TransCause), (Notice.portState p st c).kind = 0x44 ∧
    (Notice.portState p st c).body = [portByte p, st.code, st.qualifier, c.code]) ∧
  (∀ p (a : Addr) (st : StationState) (c : StationCause), (Notice.stationState p a st c).kind = 0x45 ∧
    (Notice.stationState p a st c).body = [portByte p, a.setWidth 8, st.code, c.code]) ∧
  (∀ c : LinkCause, (Notice.linkError c).kind = 0x46 ∧ (Notice.linkError c).body = [c.code]) ∧
  (∀ n : Word16, (Notice.noticesLost n).kind = 0x47 ∧ (Notice.noticesLost n).body = le n) ∧
  (∀ w : Word16, le w = [w.setWidth 8, (w >>> 8).setWidth 8]) ∧ (∀ n : Nat, leNat n = le (BitVec.ofNat 16 n)) ∧
  (∀ n : Nat, byte n = BitVec.ofNat 8 n) ∧ (∀ p : PortId, portByte p = BitVec.ofNat 8 p.val) ∧
  (∀ k : CalKind, (PortState.trimming k).code = 2 ∧ (PortState.trimming k).qualifier = k.code) ∧
  (∀ c : FaultCause, (PortState.faulted c).code = 6 ∧ (PortState.faulted c).qualifier = c.code) ∧
  [PortState.off, .ready, .degraded, .doze].map PortState.code = [1, 3, 4, 5] ∧
  [PortState.off, .ready, .degraded, .doze].map PortState.qualifier = [0, 0, 0, 0] ∧
  [CalKind.full, .quick].map CalKind.code = [1, 2] ∧
  [FaultCause.trim, .stuck, .contention].map FaultCause.code = [1, 2, 3] ∧
  [TransCause.enabled, .disabled, .reset, .dozeEntered, .dozeLeft, .upgraded, .trimmed, .rail, .calFailed, .recovered,
    .stuck, .contention].map TransCause.code = [1, 2, 3, 4, 5, 6, 7, 8, 9, 10, 11, 12] ∧
  [TxnOutcome.done, .noReply, .badReply, .collided, .cancelled, .portDisabled, .portFaulted, .portReset,
    .stationQuarantined].map TxnOutcome.code = [1, 2, 3, 4, 5, 6, 7, 8, 9] ∧
  [CalOrigin.auto, .host].map CalOrigin.code = [1, 2] ∧
  [CalOutcome.done, .rail, .failed, .abandoned].map CalOutcome.code = [1, 2, 3, 4] ∧
  [Claim.none, .queued, .granted, .window].map Claim.code = [1, 2, 3, 4] ∧
  (∀ start engine o changed, [HolderPhase.granted, .measuring start engine, .ending start o changed].map
    HolderPhase.code = [1, 2, 3]) ∧
  (∀ ms, [QuickTimer.stopped, .running ms, .expired].map QuickTimer.code = [1, 2, 3] ∧
    [QuickTimer.stopped, .running ms, .expired].map QuickTimer.remaining = [0, if ms = 0 then 1 else ms, 0]) ∧
  [TermRole.highZ, .park, .nominal, .listen].map TermRole.code = [1, 2, 3, 4] ∧
  [ThRange.low, .high].map ThRange.code = [1, 2] ∧
  [ThOrigin.default, .manual, .swept].map ThOrigin.code = [1, 2, 3] ∧
  [StationState.active, .suspect, .silent, .quarantined].map StationState.code = [1, 2, 3, 4] ∧
  [StationCause.failures, .reply, .strike, .released].map StationCause.code = [1, 2, 3, 4] ∧
  [SweepCause.portDisabled, .portReset, .portFaulted, .stationQuarantined, .trimChanged].map SweepCause.code =
    [1, 2, 3, 4, 5] ∧
  [LinkCause.length, .gap, .charFraming, .brk, .check, .overflow].map LinkCause.code = [1, 2, 3, 4, 5, 6] ∧
  [StartCause.power, .command].map StartCause.code = [1, 2] ∧
  [Result.ok, .merged, .upgraded, .unknownCommand, .badLength, .badValue, .badPort, .portState, .portBusy,
    .portDozing, .queueFull].map Result.code = [0, 1, 2, 3, 4, 5, 6, 7, 8, 9, 10] ∧
  [Result.duplicateTag, .unknownStation, .stationExists, .tableFull, .stationBusy, .stationQuarantined, .calBusy,
    .sweepBusy, .notFound, .inFlight].map Result.code = [11, 12, 13, 14, 15, 16, 17, 18, 19, 20]

/-- SET_DRIFT in range writes the drift record, computes the interval, answers it, and sends it to every port engine;
nothing else of the hub moves. -/
def Obligations.SetDriftWritesAndPassesTheInterval : Prop :=
  ∀ (s : State) (f : HostFrame) (t0 t1 v0 v1 : Byte), s.Takes f → f.kind = 0x04 → f.body = [t0, t1, v0, v1] →
    (((word t0 t1).toNat ≤ 20000 ∧ (word v0 v1).toNat ≤ 50000) →
      ∃ t, exec .setDrift s = .next t ∧
        Answered s t f .ok (leNat (intervalOf (word t0 t1).toNat (word v0 v1).toNat)) ∧ Reported s t [] ∧
        t.cmd = s.cmd ∧
        t.trim = { s.trim with dT := (word t0 t1).toNat, dV := (word v0 v1).toNat,
                               interval := intervalOf (word t0 t1).toNat (word v0 v1).toNat } ∧
        ∀ p, t.port p = Port.refresh { s.port p with
          newIntervals := (s.port p).newIntervals ++ [intervalOf (word t0 t1).toNat (word v0 v1).toNat] }) ∧
    (20000 < (word t0 t1).toNat ∨ 50000 < (word v0 v1).toNat →
      ∃ t, exec .setDrift s = .next t ∧ Refused s t f .badValue)

/-- PORT_ENABLE on an OFF port writes the settings, clears the counters and the collision run, moves the port to
TRIMMING (FULL) with its receiver on, and hands over a FULL AUTO request; in any other state it is refused. -/
def Obligations.PortEnableStartsTrimming : Prop :=
  ∀ (s : State) (f : HostFrame) (p : PortId) (rate gap timeout attempts : Byte), s.Takes f → f.kind = 0x05 →
    f.body = [portByte p, rate, gap, timeout, attempts] →
    rate.toNat ≤ 5 → 2 ≤ gap.toNat → gap.toNat ≤ 15 → 1 ≤ timeout.toNat → 1 ≤ attempts.toNat →
    attempts.toNat ≤ 4 →
    ((s.port p).state = .off → s.RoomFor 1 →
      ∃ t, exec .portEnable s = .next t ∧ Answered s t f .ok [] ∧
        Reported s t [.portState p (.trimming .full) .enabled] ∧ OnlyPort s t p ∧
        t.port p = Port.refresh { s.port p with
          settings := ⟨rate, gap, timeout, attempts⟩
          counters := ⟨0, 0, 0, 0, 0, 0⟩
          collisionRun := 0
          state := .trimming .full
          timer := .stopped
          claim := .queued
          claimNumber := (s.port p).claimNumber + 1
          claimKind := some .full
          toTrim := (s.port p).toTrim ++ [.request ⟨p, .full, .auto, 1, (s.port p).claimNumber + 1⟩]
          line := { (s.port p).line with
            receiver := .hunting, assembler := .hunt, restCount := 0, lastSample := none, gapRunning := false,
            turnaround := none, reply := .stopped, driver := .released, sending := [], threshold := ⟨.low, 20⟩,
            spoilWatch := none } }) ∧
    ((s.port p).state ≠ .off → ∃ t, exec .portEnable s = .next t ∧ Refused s t f .portState)

/-- PORT_DISABLE moves a port that is not OFF to OFF: its notices in R23's order, its tags no longer live, its work,
sweep, claim, receiver and driver ended, and everything R22 keeps kept. That the CAL_DONE of a withdrawn claim stands
after all of these notices is the model's choice (log 25). On an OFF port it is answered OK and does nothing. -/
def Obligations.PortDisableFlushesAndSwitchesOff : Prop :=
  ∀ (s : State) (f : HostFrame) (p : PortId), s.Takes f → f.kind = 0x06 → f.body = [portByte p] →
    ((s.port p).state ≠ .off →
      s.RoomFor (1 + ((s.port p).flushNotices p .portDisabled .portDisabled).length) →
      ∃ t, exec .portDisable s = .next t ∧ Answered s t f .ok [] ∧
        Reported s t (.portState p .off .disabled :: (s.port p).flushNotices p .portDisabled .portDisabled) ∧
        t.trim = s.trim ∧ t.cmd.draining = s.cmd.draining ∧
        t.cmd.live = (s.cmd.live.filter fun e => !((s.port p).tags.contains e.tag)) ∧
        (∀ p', p' ≠ p → t.port p' = s.port p') ∧
        t.port p = Port.refresh { s.port p with
          state := .off, timer := .stopped, inFlight := none, queue := [], sweep := none, lateReply := none
          claim := .none
          claimKind := if (s.port p).claim = .none then (s.port p).claimKind else none
          toTrim := (s.port p).toTrim ++ (s.port p).withdrawals
          line := { (s.port p).line with
            receiver := .off, assembler := .hunt, restCount := 0, lastSample := none, gapRunning := false,
            turnaround := none, reply := .stopped, driver := .released, sending := [], threshold := ⟨.low, 20⟩,
            spoilWatch := none } }) ∧
    ((s.port p).state = .off →
      ∃ t, exec .portDisable s = .next t ∧ Answered s t f .ok [] ∧ Reported s t [] ∧ SameBlocks s t)

/-- PORT_RESET moves a port that is not OFF to TRIMMING (FULL), flushes its work, clears the collision run, withdraws
the claim and hands over a new FULL AUTO request. A receiver that was on carries on with its frame, its idle count and
its wait for rest, while the exchange's timers, sending and threshold end with the work; a withdrawn window has its
driver reconnected and its spoil report no longer made; a receiver that was off is switched on. The port's other
records stay, its mailboxes, interval and profile among them. That the CAL_DONE of a withdrawn claim stands after all of
the flush's notices is the model's choice (log 25). An OFF port refuses it. -/
def Obligations.PortResetRestartsTrimming : Prop :=
  ∀ (s : State) (f : HostFrame) (p : PortId), s.Takes f → f.kind = 0x07 → f.body = [portByte p] →
    ((s.port p).state ≠ .off →
      s.RoomFor (1 + ((s.port p).flushNotices p .portReset .portReset).length) →
      ∃ t, exec .portReset s = .next t ∧ Answered s t f .ok [] ∧
        Reported s t (.portState p (.trimming .full) .reset :: (s.port p).flushNotices p .portReset .portReset) ∧
        t.trim = s.trim ∧ t.cmd.draining = s.cmd.draining ∧
        t.cmd.live = (s.cmd.live.filter fun e => !((s.port p).tags.contains e.tag)) ∧
        (∀ p', p' ≠ p → t.port p' = s.port p') ∧
        t.port p = Port.refresh { s.port p with
          state := .trimming .full, timer := .stopped, inFlight := none, queue := [], sweep := none, lateReply := none
          collisionRun := 0
          claim := .queued
          claimNumber := (s.port p).claimNumber + 1
          claimKind := some .full
          toTrim := (s.port p).toTrim ++ (s.port p).withdrawals ++
            [.request ⟨p, .full, .auto, 1, (s.port p).claimNumber + 1⟩]
          line :=
            if (s.port p).state.receives = true then (s.port p).flushedLine
            else { (s.port p).flushedLine with
              receiver := .hunting, assembler := .hunt, restCount := 0, lastSample := none, gapRunning := false,
              turnaround := none, reply := .stopped, driver := .released, sending := [], threshold := ⟨.low, 20⟩,
              spoilWatch := none } }) ∧
    ((s.port p).state = .off → ∃ t, exec .portReset s = .next t ∧ Refused s t f .portState)

/-- SET_TERMINATION replaces the whole profile, and the selected termination follows at once. -/
def Obligations.SetTerminationReplacesTheProfile : Prop :=
  ∀ (s : State) (f : HostFrame) (p : PortId) (park nominal listen hold : Byte), s.Takes f → f.kind = 0x09 →
    f.body = [portByte p, park, nominal, listen, hold] →
    (∀ profile : Profile, roleOf park = some profile.park → roleOf nominal = some profile.nominal →
      roleOf listen = some profile.listen → flagOf hold = some profile.hold →
      ∃ t, exec .setTermination s = .next t ∧ Answered s t f .ok [] ∧ Reported s t [] ∧ OnlyPort s t p ∧
        t.port p = Port.refresh { s.port p with profile := profile }) ∧
    (7 < park.toNat ∨ 7 < nominal.toNat ∨ 7 < listen.toNat ∨ 1 < hold.toNat →
      ∃ t, exec .setTermination s = .next t ∧ Refused s t f .badValue)

/-- DOZE ENTER on an idle READY or DEGRADED port switches it off into DOZE; on a busy one it is PORT_BUSY, in any other
state PORT_STATE. DOZE LEAVE on a DOZE port starts TRIMMING (QUICK); in any other state it is PORT_STATE. -/
def Obligations.DozeEntersIdleAndLeavesIntoQuickTrim : Prop :=
  ∀ (s : State) (f : HostFrame) (p : PortId), s.Takes f → f.kind = 0x0A →
    (f.body = [portByte p, 1] →
      ((s.port p).state.inService = true → (s.port p).queue = [] → (s.port p).inFlight = none →
        (s.port p).sweep = none → (s.port p).claim = .none → s.RoomFor 1 →
        ∃ t, exec .dozeEnter s = .next t ∧ Answered s t f .ok [] ∧ Reported s t [.portState p .doze .dozeEntered] ∧
          OnlyPort s t p ∧
          t.port p = Port.refresh { s.port p with
            state := .doze, timer := .stopped, lateReply := none
            line := { (s.port p).line with
              receiver := .off, assembler := .hunt, restCount := 0, lastSample := none, gapRunning := false,
              turnaround := none, reply := .stopped, driver := .released, sending := [], threshold := ⟨.low, 20⟩,
              spoilWatch := none } }) ∧
      ((s.port p).state.inService = true →
        ((s.port p).queue ≠ [] ∨ (s.port p).inFlight ≠ none ∨ (s.port p).sweep ≠ none ∨ (s.port p).claim ≠ .none) →
        ∃ t, exec .dozeEnter s = .next t ∧ Refused s t f .portBusy) ∧
      ((s.port p).state.inService = false → ∃ t, exec .dozeEnter s = .next t ∧ Refused s t f .portState)) ∧
    (f.body = [portByte p, 2] →
      ((s.port p).state = .doze → s.RoomFor 1 →
        ∃ t, exec .dozeLeave s = .next t ∧ Answered s t f .ok [] ∧
          Reported s t [.portState p (.trimming .quick) .dozeLeft] ∧ OnlyPort s t p ∧
          t.port p = Port.refresh { s.port p with
            state := .trimming .quick, timer := .stopped
            claim := .queued
            claimNumber := (s.port p).claimNumber + 1
            claimKind := some .quick
            toTrim := (s.port p).toTrim ++ [.request ⟨p, .quick, .auto, 1, (s.port p).claimNumber + 1⟩]
            line := { (s.port p).line with
              receiver := .hunting, assembler := .hunt, restCount := 0, lastSample := none, gapRunning := false,
              turnaround := none, reply := .stopped, driver := .released, sending := [], threshold := ⟨.low, 20⟩,
              spoilWatch := none } }) ∧
      ((s.port p).state ≠ .doze → ∃ t, exec .dozeLeave s = .next t ∧ Refused s t f .portState))

/-- CALIBRATE, once the trim unit has taken what the port sent before: PORT_STATE in OFF, DOZE and FAULTED; CAL_BUSY
while the port's window is open or its request holds the reference; MERGED or UPGRADED by R115's table while its request
is queued; and otherwise OK with a new HOST request at the tail, granted at once if the reference is free. -/
def Obligations.CalibrateMeetsTheReferenceQueue : Prop :=
  ∀ (s : State) (f : HostFrame) (p : PortId) (k : CalKind), s.Takes f → f.kind = 0x0B →
    f.body = [portByte p, k.code] →
    ((s.port p).state.receives = false → ∃ t, exec .calibrate s = .next t ∧ Refused s t f .portState) ∧
    ((s.port p).state.receives = true → (s.port p).claim = .window →
      ∃ t, exec .calibrate s = .next t ∧ Refused s t f .calBusy) ∧
    ((s.port p).state.receives = true → (s.port p).claim ≠ .window → (s.port p).toTrim = [] →
      ((∃ h, s.trim.holder = some h ∧ h.request.port = p) →
        ∃ t, exec .calibrate s = .next t ∧ Refused s t f .calBusy) ∧
      ((∀ h, s.trim.holder = some h → h.request.port ≠ p) →
        (∀ w, s.trim.queue.find? (fun r => r.port == p) = some w →
          (w.kind = .full ∨ k = .quick → ∃ t, exec .calibrate s = .next t ∧ Refused s t f .merged) ∧
          (w.kind = .quick → k = .full →
            ∃ t, exec .calibrate s = .next t ∧ Answered s t f .upgraded [] ∧ Reported s t [] ∧ t.cmd = s.cmd ∧
              t.trim = { s.trim with queue := s.trim.queue.map fun e =>
                if e.port = p then { e with kind := .full, origin := .host } else e } ∧
              (∀ p', p' ≠ p → t.port p' = s.port p') ∧
              t.port p = Port.refresh { s.port p with fromTrim := (s.port p).fromTrim ++ [.upgraded w.number] })) ∧
        ((∀ r ∈ s.trim.queue, r.port ≠ p) → (s.port p).claim = .none →
          (s.trim.holder ≠ none →
            ∃ t, exec .calibrate s = .next t ∧ Answered s t f .ok [] ∧ Reported s t [] ∧ t.cmd = s.cmd ∧
              t.trim = { s.trim with queue := s.trim.queue ++ [⟨p, k, .host, 1, (s.port p).claimNumber + 1⟩] } ∧
              (∀ p', p' ≠ p → t.port p' = s.port p') ∧
              t.port p = Port.refresh { s.port p with
                claim := .queued, claimNumber := (s.port p).claimNumber + 1, claimKind := some k }) ∧
          (s.trim.holder = none → s.trim.queue = [] →
            ∃ t, exec .calibrate s = .next t ∧ Answered s t f .ok [] ∧ Reported s t [] ∧ t.cmd = s.cmd ∧
              t.trim = { s.trim with
                holder := some ⟨⟨p, k, .host, 1, (s.port p).claimNumber + 1⟩, .granted⟩ } ∧
              (∀ p', p' ≠ p → t.port p' = s.port p') ∧
              t.port p = Port.refresh { s.port p with
                claim := .queued, claimNumber := (s.port p).claimNumber + 1, claimKind := some k
                fromTrim := (s.port p).fromTrim ++ [.granted ((s.port p).claimNumber + 1)] }))))

/-- ADD_STATION places a fresh entry after the last one, with the given threshold (MANUAL) or the default for the code
FFh; a known address is STATION_EXISTS and a table of 16 TABLE_FULL. -/
def Obligations.AddStationPlacesAFreshEntry : Prop :=
  ∀ (s : State) (f : HostFrame) (p : PortId) (a : Addr) (range : ThRange) (code : Byte), s.Takes f → f.kind = 0x0C →
    f.body = [portByte p, a.setWidth 8, range.code, code] → a ≠ 0 → (code.toNat < 32 ∨ code = 0xFF) →
    ((s.port p).station a ≠ none → ∃ t, exec .addStation s = .next t ∧ Refused s t f .stationExists) ∧
    ((s.port p).station a = none → 16 ≤ (s.port p).stations.length →
      ∃ t, exec .addStation s = .next t ∧ Refused s t f .tableFull) ∧
    ((s.port p).station a = none → (s.port p).stations.length < 16 →
      ∃ t, exec .addStation s = .next t ∧ Answered s t f .ok [] ∧ Reported s t [] ∧ OnlyPort s t p ∧
        t.port p = Port.refresh { s.port p with stations := (s.port p).stations ++
          [{ addr := a, state := .active, failureRun := 0, strikes := 0,
             threshold := if code = 0xFF then ⟨.low, 20⟩ else ⟨range, code.setWidth 5⟩,
             origin := if code = 0xFF then .default else .manual,
             lastWindow := none, completed := 0, failed := 0, late := 0, noisy := 0 }] })

/-- REMOVE_STATION removes an entry that no live transaction of the port and no active sweep of it names; otherwise it
is STATION_BUSY, and for an absent address UNKNOWN_STATION. -/
def Obligations.RemoveStationClosesUp : Prop :=
  ∀ (s : State) (f : HostFrame) (p : PortId) (a : Addr), s.Takes f → f.kind = 0x0D →
    f.body = [portByte p, a.setWidth 8] → a ≠ 0 →
    ((s.port p).station a = none → ∃ t, exec .removeStation s = .next t ∧ Refused s t f .unknownStation) ∧
    ((s.port p).station a ≠ none →
      ((∃ x ∈ (s.port p).queue, x.station = some a) ∨
       (∃ ph r, (s.port p).inFlight = some ⟨ph, .txn r⟩ ∧ r.txn.station = some a) ∨
       (∃ w, (s.port p).sweep = some w ∧ w.station = a)) →
      ∃ t, exec .removeStation s = .next t ∧ Refused s t f .stationBusy) ∧
    ((s.port p).station a ≠ none → (∀ x ∈ (s.port p).queue, x.station ≠ some a) →
      (∀ ph r, (s.port p).inFlight = some ⟨ph, .txn r⟩ → r.txn.station ≠ some a) →
      (∀ w, (s.port p).sweep = some w → w.station ≠ a) →
      ∃ t, exec .removeStation s = .next t ∧ Answered s t f .ok [] ∧ Reported s t [] ∧ OnlyPort s t p ∧
        t.port p = Port.refresh { s.port p with
          stations := (s.port p).stations.filter fun e => decide (e.addr ≠ a) })

/-- RELEASE_STATION clears strikes and failure run and makes the entry ACTIVE, with a STATION_STATE exactly when it was
not; SET_THRESHOLD makes the threshold record the one given with origin MANUAL, unless the active sweep is on the
station. Both are UNKNOWN_STATION for an absent address, and neither touches another entry. -/
def Obligations.ReleaseAndThresholdChangeOneEntry : Prop :=
  ∀ (s : State) (f : HostFrame) (p : PortId) (a : Addr), s.Takes f → a ≠ 0 →
    (f.kind = 0x0E → f.body = [portByte p, a.setWidth 8] →
      ((s.port p).station a = none → ∃ t, exec .releaseStation s = .next t ∧ Refused s t f .unknownStation) ∧
      (∀ e, (s.port p).station a = some e → s.RoomFor 1 →
        ∃ t, exec .releaseStation s = .next t ∧ Answered s t f .ok [] ∧
          Reported s t (if e.state = .active then [] else [.stationState p a .active .released]) ∧ OnlyPort s t p ∧
          t.port p = Port.refresh { s.port p with stations := (s.port p).stations.map fun e =>
            if e.addr = a then { e with strikes := 0, failureRun := 0, state := .active } else e })) ∧
    (∀ (range : ThRange) (code : ThCode), f.kind = 0x0F →
      f.body = [portByte p, a.setWidth 8, range.code, code.setWidth 8] →
      ((s.port p).station a = none → ∃ t, exec .setThreshold s = .next t ∧ Refused s t f .unknownStation) ∧
      ((s.port p).station a ≠ none → (∃ w, (s.port p).sweep = some w ∧ w.station = a) →
        ∃ t, exec .setThreshold s = .next t ∧ Refused s t f .sweepBusy) ∧
      ((s.port p).station a ≠ none → (∀ w, (s.port p).sweep = some w → w.station ≠ a) →
        ∃ t, exec .setThreshold s = .next t ∧ Answered s t f .ok [] ∧ Reported s t [] ∧ OnlyPort s t p ∧
          t.port p = Port.refresh { s.port p with stations := (s.port p).stations.map fun e =>
            if e.addr = a then { e with threshold := ⟨range, code⟩, origin := .manual } else e }))

/-- SWEEP meets its own checks in R141's order, the first that fails giving the result; taken, it creates the sweep
record of R140 and the port decides its next work. -/
def Obligations.SweepCommandChecksThenCreates : Prop :=
  ∀ (s : State) (f : HostFrame) (p : PortId) (a : Addr) (range : ThRange), s.Takes f → f.kind = 0x11 →
    f.body = [portByte p, a.setWidth 8, range.code] → a ≠ 0 →
    ((s.port p).state.inService = false → ∃ t, exec .sweep s = .next t ∧ Refused s t f .portState) ∧
    ((s.port p).state.inService = true →
      ((s.port p).station a = none → ∃ t, exec .sweep s = .next t ∧ Refused s t f .unknownStation) ∧
      (∀ e, (s.port p).station a = some e →
        (e.state = .quarantined → ∃ t, exec .sweep s = .next t ∧ Refused s t f .stationQuarantined) ∧
        (e.state ≠ .quarantined → (s.port p).sweep ≠ none →
          ∃ t, exec .sweep s = .next t ∧ Refused s t f .sweepBusy) ∧
        (e.state ≠ .quarantined → (s.port p).sweep = none →
          ∃ t, exec .sweep s = .next t ∧ Answered s t f .ok [] ∧ Reported s t [] ∧ OnlyPort s t p ∧
            t.port p = Port.refresh (Port.nextWork { s.port p with
              sweep := some ⟨a, range, 0, List.replicate 32 .untried, 0, .transaction⟩ }))))

/-- SUBMIT, its body laid out byte by byte as R164 gives it, past the common checks: R59's checks in order, the first
that fails giving the result; accepted, the tag enters the live tag set, the record with its attempts filled in enters
the queue in class order, and a queue that was empty makes the port decide. -/
def Obligations.SubmitChecksThenQueues : Prop :=
  ∀ (s : State) (f : HostFrame) (p : PortId) (x : Txn), s.Takes f → f.kind = 0x12 → x.Submittable →
    f.body = x.submitBody p →
    let q := s.port p
    let refused := fun r => ∃ t, exec .submit s = .next t ∧ Refused s t f r
    (q.state = .doze → refused .portDozing) ∧
    (q.state ≠ .doze → q.state.receives = false → refused .portState) ∧
    (q.state.receives = true →
      ((∃ e ∈ s.cmd.live, e.tag = x.tag) → refused .duplicateTag) ∧
      ((∀ e ∈ s.cmd.live, e.tag ≠ x.tag) →
        (∀ a, x.station = some a → q.station a = none → refused .unknownStation) ∧
        (∀ a e, x.station = some a → q.station a = some e → e.state = .quarantined → refused .stationQuarantined) ∧
        ((∀ a, x.station = some a → ∃ e, q.station a = some e ∧ e.state ≠ .quarantined) →
          (16 ≤ q.queue.length → refused .queueFull) ∧
          (q.queue.length < 16 →
            ∃ t, exec .submit s = .next t ∧ Answered s t f .ok [] ∧ Reported s t [] ∧ t.trim = s.trim ∧
              t.cmd.draining = s.cmd.draining ∧ t.cmd.live = s.cmd.live ++ [⟨x.tag, p⟩] ∧
              (∀ p', p' ≠ p → t.port p' = s.port p') ∧
              let record := { x with attempts := if x.attempts = 0 then q.settings.attempts.toNat else x.attempts }
              t.port p = Port.refresh
                (if q.queue = [] then Port.nextWork { q with queue := [record] }
                 else { q with queue := insertTxn record q.queue })))))

/-- CANCEL: NOT_FOUND for a tag that is not live, IN_FLIGHT for one that is not queued any more, and for a queued one
OK, its removal, its TXN_DONE (CANCELLED) and its tag no longer live. -/
def Obligations.CancelRemovesAQueuedTransaction : Prop :=
  ∀ (s : State) (f : HostFrame) (t0 t1 : Byte), s.Takes f → f.kind = 0x13 → f.body = [t0, t1] → word t0 t1 ≠ 0 →
    let tag := word t0 t1
    ((∀ e ∈ s.cmd.live, e.tag ≠ tag) → ∃ t, exec .cancel s = .next t ∧ Refused s t f .notFound) ∧
    (∀ p, s.liveTag tag = some ⟨tag, p⟩ →
      ((∀ x ∈ (s.port p).queue, x.tag ≠ tag) → ∃ t, exec .cancel s = .next t ∧ Refused s t f .inFlight) ∧
      ((∃ x ∈ (s.port p).queue, x.tag = tag) → s.RoomFor 1 →
        ∃ t, exec .cancel s = .next t ∧ Answered s t f .ok [] ∧
          Reported s t [.txnDone tag p .cancelled 0 none] ∧ t.trim = s.trim ∧
          t.cmd.draining = s.cmd.draining ∧ t.cmd.live = s.cmd.live.filter (fun e => decide (e.tag ≠ tag)) ∧
          (∀ p', p' ≠ p → t.port p' = s.port p') ∧
          t.port p = Port.refresh { s.port p with
            queue := (s.port p).queue.filter fun x => decide (x.tag ≠ tag) }))

/-! ### The drop line -/

/-- The check of R7, bit by bit from FFFFh, with its reference value; every frame the hub sends carries it, low byte
first, and a received frame is GOOD exactly when its two check characters equal it. -/
def Obligations.CheckIsComputedBitByBit : Prop :=
  (∀ (reg : Word16) (bit : Bool),
    crcBit reg bit = if reg.getLsbD 0 = bit then reg >>> 1 else (reg >>> 1) ^^^ 0x8408) ∧
  (∀ (reg : Word16) (b : Byte), crcByte reg b =
    crcBit (crcBit (crcBit (crcBit (crcBit (crcBit (crcBit (crcBit reg (b.getLsbD 0)) (b.getLsbD 1)) (b.getLsbD 2))
      (b.getLsbD 3)) (b.getLsbD 4)) (b.getLsbD 5)) (b.getLsbD 6)) (b.getLsbD 7)) ∧
  checkOf [] = 0xFFFF ∧
  (∀ (bytes : List Byte) (b : Byte), checkOf (bytes ++ [b]) = crcByte (checkOf bytes) b) ∧
  checkOf [0x31, 0x32, 0x33, 0x34, 0x35, 0x36, 0x37, 0x38, 0x39] = 0x6F91 ∧
  (∀ (kind : FrameKind) (a : Addr) (payload : List Byte), ∃ front : List LineChar,
    front.map LineChar.data = headByte kind a :: BitVec.ofNat 8 payload.length :: payload ∧
    frameChars kind a payload =
      front ++ [⟨lowByte (checkOf (front.map LineChar.data)), false⟩,
                ⟨highByte (checkOf (front.map LineChar.data)), false⟩]) ∧
  (∀ (r : FrameRec) (n lo hi : Byte), r.count = some n → r.checkLo = some lo → r.checkHi = some hi →
    (r.checkGood = true ↔
      lowByte (checkOf (headByte r.kind r.addr :: n :: r.payload)) = lo ∧
      highByte (checkOf (headByte r.kind r.addr :: n :: r.payload)) = hi))

/-- A switched-off receiver, or a hub that does not run, hears nothing; otherwise an active sample sets the idle count
to zero and makes the window's one spoil report, a rest sample lets a waiting receiver hunt, an accepted start bit
outside TURNAROUND holds the reply timer and stops the gap timer, and an unmarked character leaves no frame in HUNT and
is otherwise added to the frame in assembly by R9's table (log 9 for the samples that a start bit and a framing error
imply, and log 14 for the operand of a start bit taken as the reply timer reached its timeout). -/
def Obligations.ReceiverTakesSamplesStartsAndCharacters : Prop :=
  ∀ (s : State) (p : PortId) (atLimit : Bool) (c : RxChar),
    ((s.power ≠ .running ∨ (s.port p).line.receiver = .off) →
      ∀ e ∈ [.activeSample p, .restLevelSample p, .startBitAccepted p atLimit, .startInTurnaround p,
          .characterReceived p c, .characterGapExpiry p, .lineBecomesIdle p, .frameSent p, .collision p,
          .turnaroundExpiry p, .replyTimeout p, .stuckLineExpiry p],
        exec e s = .next s) ∧
    (s.Hears p →
      (∃ t, exec (.activeSample p) s = .next t ∧ Quiet s t p ∧ t.port p = (s.port p).sampled.refresh) ∧
      (∃ t, exec (.restLevelSample p) s = .next t ∧ Quiet s t p ∧
        t.port p = Port.refresh { s.port p with line := { (s.port p).line with
          lastSample := some .rest
          receiver := if (s.port p).line.receiver = .waitRest then .hunting else (s.port p).line.receiver } }) ∧
      ((s.port p).line.receiver = .hunting → (s.port p).line.driver ≠ .driving →
        (s.port p).line.turnaround = none →
        exec (.startInTurnaround p) s = .next s ∧
        ∃ t, exec (.startBitAccepted p atLimit) s = .next t ∧ Quiet s t p ∧
          t.port p = ((s.port p).startTaken atLimit).refresh) ∧
      ((s.port p).line.receiver = .inCharacter → c.mark = false → (∀ n, (s.port p).line.reply ≠ .held n true) →
        ((s.port p).line.assembler = .hunt →
          ∃ t, exec (.characterReceived p c) s = .next t ∧ Quiet s t p ∧
            t.port p = ((s.port p).charEnded c).refresh) ∧
        (∀ w before w' r, (s.port p).line.assembler = .assembling w before →
          (before.note c).grown w c.data = some (w', r) →
          (∀ run, (s.port p).inFlight = some ⟨.receiving, .txn run⟩ → w = .count →
            ∃ limit, run.txn.replyLimit = some limit ∧ c.data.toNat ≤ limit) →
          ∃ t, exec (.characterReceived p c) s = .next t ∧ Quiet s t p ∧
            t.port p = ((s.port p).charAdded c w' r).refresh)))

/-- A start bit accepted while the turnaround timer runs fails the attempt BAD_REPLY, or ends the probe FAIL, whichever
of its two commands brings it; the characters that follow are still received. -/
def Obligations.StartInTurnaroundFailsTheExchange : Prop :=
  ∀ (s : State) (p : PortId) (c : Instr), s.Hears p → (c = .startInTurnaround p ∨ ∃ l, c = .startBitAccepted p l) →
    (s.port p).line.receiver = .hunting → (s.port p).line.driver ≠ .driving → (s.port p).line.turnaround ≠ none →
    (s.port p).line.reply = .stopped →
    (∀ ph r, (s.port p).inFlight = some ⟨ph, .txn r⟩ → s.RoomFor 2 →
      ∃ t, exec c s = .next t ∧ FailsAttempt s t p ((s.port p).startTaken false) r .badReply) ∧
    (∀ ph r w, (s.port p).inFlight = some ⟨ph, .probe r⟩ → (s.port p).sweep = some w → s.RoomToEnd w →
      ∃ t, exec c s = .next t ∧ ProbeEnds s t p ((s.port p).startTaken false) w r.code .fail)

/-- The turnaround timer's expiry opens AWAITING with the reply timer at the port's timeout; the reply timer's expiry
sets the late-reply record to the addressed station and fails the exchange NO_REPLY. On an idle line the work that
follows begins at once and clears the record, unless a station's start bit is taken first (log 24): then the line is not
idle, the work waits and the record stays for the head that follows. A held reply timer that had already reached its
timeout, released in AWAITING by an unmarked character, expires in the same way at once, after the assembler has taken
the character. -/
def Obligations.ReplyWindowTimersExpire : Prop :=
  ∀ (s : State) (p : PortId), s.Hears p →
    (∀ n ph w, (s.port p).line.turnaround = some n → (s.port p).inFlight = some ⟨ph, w⟩ →
      ∃ t, exec (.turnaroundExpiry p) s = .next t ∧ Quiet s t p ∧
        t.port p = Port.refresh { s.port p with
          inFlight := some ⟨.awaiting, w⟩
          line := { (s.port p).line with
            turnaround := none, reply := .running (s.port p).settings.timeout.toNat } }) ∧
    ((s.port p).line.turnaround = none → exec (.turnaroundExpiry p) s = .next s) ∧
    (∀ n ph r q, (s.port p).line.reply = .running n → (s.port p).inFlight = some ⟨ph, .txn r⟩ → s.RoomFor 2 →
      s.AtTimeout p q →
      ∃ t, exec (.replyTimeout p) s = .next t ∧
        FailsAttempt s t p { q with lateReply := r.txn.station } r .noReply ∧
        (s.StartFirst p → (t.port p).lateReply = r.txn.station)) ∧
    (∀ n ph r w q, (s.port p).line.reply = .running n → (s.port p).inFlight = some ⟨ph, .probe r⟩ →
      (s.port p).sweep = some w → s.RoomToEnd w → s.AtTimeout p q →
      ∃ t, exec (.replyTimeout p) s = .next t ∧
        ProbeEnds s t p { q with lateReply := some r.station } w r.code .fail ∧
        (s.StartFirst p → (t.port p).lateReply = some r.station)) ∧
    (∀ ch q n, s.TakesUnmarked p ch q → (s.port p).line.reply = .held n true →
      (∀ r, (s.port p).inFlight = some ⟨.awaiting, .txn r⟩ → s.RoomFor 2 →
        ∃ t, exec (.characterReceived p ch) s = .next t ∧
          FailsAttempt s t p { q with lateReply := r.txn.station } r .noReply) ∧
      (∀ r w, (s.port p).inFlight = some ⟨.awaiting, .probe r⟩ → (s.port p).sweep = some w → s.RoomToEnd w →
        ∃ t, exec (.characterReceived p ch) s = .next t ∧
          ProbeEnds s t p { q with lateReply := some r.station } w r.code .fail)) ∧
    ((∀ n, (s.port p).line.reply ≠ .running n) → exec (.replyTimeout p) s = .next s)

/-- An idle line begins the attempt or the probe that waits for it: attempts used increases, the phase is SENDING, the
driver is on the frame's first start bit, and the late-reply record is cleared. With nothing waiting the line only
becomes idle. -/
def Obligations.IdleLineBeginsWaitingWork : Prop :=
  ∀ (s : State) (p : PortId), s.Hears p → (s.port p).line.receiver ≠ .inCharacter →
    (s.port p).line.driver ≠ .driving →
    let heard : Receiver := if (s.port p).line.receiver = .waitRest then .hunting else (s.port p).line.receiver
    (∀ ph w, (s.port p).inFlight = some ⟨ph, w⟩ → (ph = .waitingIdle ∨ ph = .recovering) →
      ∃ t, exec (.lineBecomesIdle p) s = .next t ∧ Quiet s t p ∧
        t.port p = Port.refresh { s.port p with
          inFlight := some ⟨.sending, match w with
            | .txn r => .txn { r with used := r.used + 1 }
            | .probe r => .probe r⟩
          lateReply := none
          line := { (s.port p).line with
            receiver := heard
            driver := .driving
            restCount := 0
            lastSample := some .active
            sending := match w with
              | .txn r =>
                if r.txn.kind = .request then frameChars .request r.txn.address r.txn.payload
                else frameChars .post (if r.txn.kind = .post then r.txn.address else 0) r.txn.payload
              | .probe r => frameChars .probe r.station (probePattern r.code) } }) ∧
    ((∀ f, (s.port p).inFlight = some f → f.phase ≠ .waitingIdle ∧ f.phase ≠ .recovering) →
      ∃ t, exec (.lineBecomesIdle p) s = .next t ∧ Quiet s t p ∧
        t.port p = Port.refresh { s.port p with
          line := { (s.port p).line with receiver := heard, restCount := 14, lastSample := some .rest } })

/-- A head outside any reply window, whatever frame it interrupts there, whose noise is charged first: a head of
another kind, a REPLY with no late-reply record, or one whose address is not in the table counts as a stray frame; a
REPLY of the recorded station counts as a late reply; and a REPLY of another station in the table is a strike against
it. -/
def Obligations.HeadsOutsideTheWindowAreClassified : Prop :=
  ∀ (s : State) (p : PortId) (c : RxChar), s.Hears p → (s.port p).line.receiver = .inCharacter → c.mark = true →
    (s.port p).OutsideWindow →
    let q := (s.port p).headOpened c
    let a := addrOfHead c.data
    ((kindOfHead c.data ≠ .reply ∨ q.lateReply = none ∨ q.station a = none) →
      ∃ t, exec (.characterReceived p c) s = .next t ∧ Quiet s t p ∧ t.port p = q.strayCounted.refresh) ∧
    (kindOfHead c.data = .reply → ∀ late e, q.lateReply = some late → q.station a = some e →
      (late = a →
        ∃ t, exec (.characterReceived p c) s = .next t ∧ Quiet s t p ∧
          t.port p = Port.refresh { q with
            stations := q.stations.map fun x => if x.addr = a then { x with late := satInc x.late } else x }) ∧
      (late ≠ a → e.strikes = 0 →
        ∃ t, exec (.characterReceived p c) s = .next t ∧ Quiet s t p ∧
          t.port p = Port.refresh { q with
            stations := q.stations.map fun x => if x.addr = a then { x with strikes := 1 } else x }) ∧
      (late ≠ a → 2 ≤ e.strikes →
        ∃ t, exec (.characterReceived p c) s = .next t ∧ Quiet s t p ∧ t.port p = q.refresh))

/-- The second strike quarantines the station: STATION_STATE first, then its in-flight work, its queued transactions in
queue order and its sweep end, and the port decides again exactly if in-flight work ended (log 17). -/
def Obligations.SecondStrikeQuarantines : Prop :=
  ∀ (s : State) (p : PortId) (c : RxChar) (e : Station) (late : Addr), s.Hears p →
    (s.port p).line.receiver = .inCharacter → c.mark = true → kindOfHead c.data = .reply →
    (s.port p).OutsideWindow → (s.port p).lateReply = some late → late ≠ addrOfHead c.data →
    let q := (s.port p).headOpened c
    let a := addrOfHead c.data
    q.station a = some e → e.strikes = 1 → s.RoomFor (q.quarantineNotices p a).length →
    ∃ t, exec (.characterReceived p c) s = .next t ∧
      Quarantines s t p q a
        (if q.runsFor a then
          Port.nextWork { q.quarantined a with inFlight := none, line := (q.quarantined a).line.ended }
        else q.quarantined a)

/-- A head in AWAITING, whatever frame it interrupts: a REPLY of the addressed station is the reply head; a head of
another kind, and a REPLY of an address not in the table, count as stray frames and fail the exchange; a REPLY of
another station in the table is a strike, made before the exchange fails: the first is counted, the second quarantines
the station and ends its queued work and its sweep, and a third changes nothing. -/
def Obligations.HeadsInTheWindowDecideTheExchange : Prop :=
  ∀ (s : State) (p : PortId) (c : RxChar) (w : Work), s.Hears p → (s.port p).line.receiver = .inCharacter →
    c.mark = true → (s.port p).inFlight = some ⟨.awaiting, w⟩ →
    let q := (s.port p).headOpened c
    let a := addrOfHead c.data
    let target : Option Addr := match w with
      | .txn r => r.txn.station
      | .probe r => some r.station
    (kindOfHead c.data = .reply → target = some a →
      ∃ t, exec (.characterReceived p c) s = .next t ∧ Quiet s t p ∧
        t.port p = Port.refresh { q with inFlight := some ⟨.receiving, w⟩ }) ∧
    (∀ q' : Port, s.NotTheReply p c target q' →
      (∀ r, w = .txn r → s.RoomFor 2 →
        ∃ t, exec (.characterReceived p c) s = .next t ∧ FailsAttempt s t p q' r .badReply) ∧
      (∀ r v, w = .probe r → (s.port p).sweep = some v → s.RoomToEnd v →
        ∃ t, exec (.characterReceived p c) s = .next t ∧ ProbeEnds s t p q' v r.code .fail)) ∧
    (∀ e, kindOfHead c.data = .reply → target ≠ some a → q.station a = some e → e.strikes = 1 →
      s.RoomFor ((q.quarantineNotices p a).length + 2) →
      (∀ r, w = .txn r →
        ∃ m t, exec (.characterReceived p c) s = .next t ∧ Quarantines s m p q a (q.quarantined a) ∧
          FailsAttempt m t p (q.quarantined a) r .badReply) ∧
      (∀ r v, w = .probe r → (q.quarantined a).sweep = some v →
        ∃ m t, exec (.characterReceived p c) s = .next t ∧ Quarantines s m p q a (q.quarantined a) ∧
          ProbeEnds m t p (q.quarantined a) v r.code .fail))

/-- The characters of a REPLY frame of the addressed station, received clean one after another in AWAITING, with a
payload within the reply limit, complete the transaction DONE with exactly that payload. -/
def Obligations.GoodReplyCompletesDone : Prop :=
  ∀ (s : State) (p : PortId) (r : TxnRun) (a : Addr) (limit : Nat) (payload : List Byte), s.Hears p → s.RoomFor 2 →
    (s.port p).line.receiver = .hunting → (s.port p).line.driver ≠ .driving → (s.port p).line.turnaround = none →
    (s.port p).line.assembler = .hunt → (s.port p).inFlight = some ⟨.awaiting, .txn r⟩ →
    r.txn.station = some a → r.txn.replyLimit = some limit → payload.length ≤ limit → limit ≤ 48 →
    ∃ t, runAll ((frameChars .reply a payload).map fun ch => .characterReceived p ⟨ch.data, ch.mark, false, false⟩) s =
        .next t ∧
      Completes s t p
        { (s.port p).sampled with line := { (s.port p).sampled.line with
            receiver := .hunting, assembler := .hunt, lastSample := some .rest, gapRunning := false } }
        r.txn .done r.used (some payload)

/-- A frame end in RECEIVING judges the exchange, its noise charged to its station first: a whole and clean reply
completes the transaction DONE with its payload, anything else fails the attempt BAD_REPLY, and a probe passes only on
a clean echo of its sixteen bytes. Outside RECEIVING a frame end judges nothing. A head that interrupts the reply ends
its exchange in the same way, and then, outside any window, counts as a stray frame and opens its own frame record. A
COUNT over the reply limit fails the attempt at once, and its frame goes on. -/
def Obligations.FrameEndJudgesTheReply : Prop :=
  (∀ (s : State) (p : PortId) (c : Instr) (q : Port) (rec : FrameRec) (good : Bool), s.Hears p →
    (s.port p).line.reply = .stopped → s.FrameEnds p c q rec good →
    (∀ r, (s.port p).inFlight = some ⟨.receiving, .txn r⟩ → s.RoomFor 2 →
      ∃ t, exec c s = .next t ∧
        (good = true → Completes s t p q r.txn .done r.used (some rec.payload)) ∧
        (good = false → FailsAttempt s t p q r .badReply)) ∧
    (∀ r w, (s.port p).inFlight = some ⟨.receiving, .probe r⟩ → (s.port p).sweep = some w → s.RoomToEnd w →
      ∃ t, exec c s = .next t ∧
        ProbeEnds s t p q w r.code
          (if good = true ∧ rec.count = some 16 ∧ rec.payload = probePattern r.code then .pass else .fail)) ∧
    ((∀ f, (s.port p).inFlight = some f → f.phase ≠ .receiving) →
      ∃ t, exec c s = .next t ∧ Quiet s t p ∧ t.port p = q.refresh)) ∧
  (∀ (s : State) (p : PortId) (ch : RxChar) (waiting : Awaited) (before : FrameRec), s.Hears p →
    (s.port p).line.receiver = .inCharacter → ch.mark = true →
    (s.port p).line.assembler = .assembling waiting before →
    (kindOfHead ch.data ≠ .reply ∨ (s.port p).lateReply = none) →
    let q := ((s.port p).headOpened ch).strayCounted
    (∀ r, (s.port p).inFlight = some ⟨.receiving, .txn r⟩ → s.RoomFor 2 →
      ∃ t, exec (.characterReceived p ch) s = .next t ∧ FailsAttempt s t p q r .badReply) ∧
    (∀ r w, (s.port p).inFlight = some ⟨.receiving, .probe r⟩ → (s.port p).sweep = some w → s.RoomToEnd w →
      ∃ t, exec (.characterReceived p ch) s = .next t ∧ ProbeEnds s t p q w r.code .fail)) ∧
  (∀ (s : State) (p : PortId) (ch : RxChar) (before : FrameRec) (r : TxnRun) (limit : Nat), s.Hears p → s.RoomFor 2 →
    (s.port p).line.reply = .stopped → (s.port p).line.receiver = .inCharacter → ch.mark = false →
    (s.port p).line.assembler = .assembling .count before → (s.port p).inFlight = some ⟨.receiving, .txn r⟩ →
    r.txn.replyLimit = some limit → limit < ch.data.toNat → ch.data.toNat ≤ 48 →
    let ended := (s.port p).charEnded ch
    ∃ t, exec (.characterReceived p ch) s = .next t ∧
      FailsAttempt s t p { ended with line := { ended.line with
        gapRunning := true, assembler := .assembling .payload { before.note ch with count := some ch.data } } }
        r .badReply)

/-- A frame sent whole counts as sent and ends the collision run. A REQUEST and a probe then open their reply window,
with the station's threshold or the probe's code applied; a POST and a BROADCAST complete DONE. -/
def Obligations.FrameSentOpensTheReplyWindow : Prop :=
  ∀ (s : State) (p : PortId) (w : Work), s.Hears p → (s.port p).inFlight = some ⟨.sending, w⟩ →
    (s.port p).line.driver = .driving →
    let q : Port := { s.port p with
      counters := { (s.port p).counters with framesSent := satInc (s.port p).counters.framesSent }
      collisionRun := 0
      line := { (s.port p).line with driver := .released, sending := [], lastSample := some .rest } }
    let opened (th : Threshold) : Port := { q with
      inFlight := some ⟨.turnaround, w⟩
      line := { q.line with turnaround := some q.settings.gap.toNat, threshold := th } }
    (∀ r a e, w = .txn r → r.txn.kind = .request → r.txn.station = some a → q.station a = some e →
      ∃ t, exec (.frameSent p) s = .next t ∧ Quiet s t p ∧ t.port p = (opened e.threshold).refresh) ∧
    (∀ r, w = .probe r →
      ∃ t, exec (.frameSent p) s = .next t ∧ Quiet s t p ∧ t.port p = (opened ⟨r.range, r.code⟩).refresh) ∧
    (∀ r, w = .txn r → r.txn.kind ≠ .request → s.RoomFor 2 →
      ∃ t, exec (.frameSent p) s = .next t ∧ Completes s t p q r.txn .done r.used none)

/-- A collision is counted, releases the driver and has the receiver wait for rest. Below eight in a row it fails the
attempt COLLIDED or the probe; the eighth faults the port CONTENTION before anything else comes of the frame. That the
CAL_DONE of a withdrawn claim stands after all of the flush's notices is the model's choice (log 25). -/
def Obligations.CollisionFailsOrFaults : Prop :=
  ∀ (s : State) (p : PortId) (w : Work), s.Hears p → (s.port p).inFlight = some ⟨.sending, w⟩ →
    (s.port p).line.driver = .driving → (s.port p).collisionRun < 8 →
    let q : Port := { s.port p with
      counters := { (s.port p).counters with collisions := satInc (s.port p).counters.collisions }
      collisionRun := (s.port p).collisionRun + 1
      line := { (s.port p).line with driver := .released, sending := [], receiver := .waitRest } }
    (q.collisionRun < 8 →
      (∀ r, w = .txn r → s.RoomFor 2 → ∃ t, exec (.collision p) s = .next t ∧ FailsAttempt s t p q r .collided) ∧
      (∀ r v, w = .probe r → (s.port p).sweep = some v → s.RoomToEnd v →
        ∃ t, exec (.collision p) s = .next t ∧ ProbeEnds s t p q v r.code .fail)) ∧
    (q.collisionRun = 8 → s.RoomFor (1 + (q.flushNotices p .portFaulted .portFaulted).length) →
      ∃ t, exec (.collision p) s = .next t ∧
        FaultsInto s t p q .contention .contention (q.faultedWith .contention))

/-- The stuck-line timer counts while the receiver runs, the line is not idle and no exchange is in one of its four
phases; its expiry faults the port STUCK, and a timer that does not count does not expire. That the CAL_DONE of a
withdrawn claim stands after all of the flush's notices is the model's choice (log 25). -/
def Obligations.StuckLineFaultsThePort : Prop :=
  (∀ q : Port, q.stuckTimer = .counting ↔
    q.line.receiver ≠ .off ∧ q.line.restCount ≠ 14 ∧
      ∀ f, q.inFlight = some f →
        f.phase ≠ .sending ∧ f.phase ≠ .turnaround ∧ f.phase ≠ .awaiting ∧ f.phase ≠ .receiving) ∧
  (∀ (s : State) (p : PortId), s.Hears p →
    ((s.port p).line.stuck = .counting →
      s.RoomFor (1 + ((s.port p).flushNotices p .portFaulted .portFaulted).length) →
      ∃ t, exec (.stuckLineExpiry p) s = .next t ∧
        FaultsInto s t p (s.port p) .stuck .stuck ((s.port p).faultedWith .stuck)) ∧
    ((s.port p).line.stuck ≠ .counting → exec (.stuckLineExpiry p) s = .next s))

/-! ### Work, stations and sweeps -/

/-- The port's next work: first a granted window; then, with a sweep whose last work was a probe, the queue head; then
the sweep's next probe; then the queue head. Work taken on an idle line begins at once. -/
def Obligations.NextWorkIsChosenInOrder : Prop :=
  (∀ q : Port,
    (¬ (q.state.inService = true ∧ q.inFlight = none ∧ q.claim ≠ .window) → q.nextWork = q) ∧
    (q.state.inService = true → q.inFlight = none → q.claim ≠ .window →
      (q.claim = .granted →
        q.nextWork = { q with claim := .window, toTrim := q.toTrim ++ [.windowOpen q.claimNumber] }) ∧
      (q.claim ≠ .granted →
        (∀ w, q.sweep = some w → (w.last = .transaction ∨ q.queue = []) →
          q.nextWork = Port.beginIfIdle { q with
            inFlight := some ⟨.waitingIdle, .probe ⟨w.station, w.range, BitVec.ofNat 5 w.next⟩⟩
            sweep := some { w with last := .probe } }) ∧
        (∀ x rest limit, q.queue = x :: rest → (∀ w, q.sweep = some w → w.last = .probe) →
          ((∀ a e, x.kind = .request → x.station = some a → q.station a = some e → e.state = .silent → limit = 1) ∧
           ((x.kind ≠ .request ∨ ∀ a e, x.station = some a → q.station a = some e → e.state ≠ .silent) →
             limit = x.attempts)) →
          q.nextWork = Port.beginIfIdle { q with
            queue := rest
            inFlight := some ⟨.waitingIdle, .txn ⟨x, limit, 0, none, none⟩⟩
            sweep := q.sweep.map fun w => { w with last := .transaction } }) ∧
        (q.sweep = none → q.queue = [] → q.nextWork = q)))) ∧
  (∀ (q : Port) (f : InFlight), q.inFlight = some f →
    (q.line.restCount ≠ 14 → q.beginIfIdle = q) ∧
    (f.phase = .waitingIdle → q.line.restCount = 14 →
      q.beginIfIdle = { q with
        inFlight := some ⟨.sending, match f.work with
          | .txn r => .txn { r with used := r.used + 1 }
          | .probe r => .probe r⟩
        lateReply := none
        line := { q.line with driver := .driving, sending := f.work.frame, restCount := 0
                              lastSample := some .active } }))

/-- An EXPEDITED transaction stands directly after the last EXPEDITED one, a NORMAL one at the tail. -/
def Obligations.QueueKeepsClassOrder : Prop :=
  ∀ (x : Txn) (first rest : List Txn), (∀ y ∈ first, y.cls = .expedited) → (∀ y ∈ rest, y.cls = .normal) →
    (x.cls = .expedited → insertTxn x (first ++ rest) = first ++ x :: rest) ∧
    (x.cls = .normal → insertTxn x (first ++ rest) = first ++ (rest ++ [x]))

/-- What a completion does to a station's entry: its counters by outcome, and for a REQUEST the failure run, which stays
at 255, and the state; nothing else moves, the strikes among it. -/
def Obligations.CompletionsMoveTheStationEntry : Prop :=
  ∀ (e : Station) (kind : TxnKind) (o : TxnOutcome),
    let run : Byte := if e.failureRun = 255 then 255 else e.failureRun + 1
    ((o = .noReply ∨ o = .badReply ∨ o = .collided) →
      e.complete kind o =
        if kind = .request then
          { e with
            failed := satInc e.failed
            failureRun := run
            state :=
              if e.state = .active ∧ run.toNat < 3 then .suspect
              else if (e.state = .active ∨ e.state = .suspect) ∧ 3 ≤ run.toNat then .silent
              else e.state }
        else { e with failed := satInc e.failed }) ∧
    (o = .done →
      e.complete kind o =
        if kind = .request then
          { e with
            completed := satInc e.completed
            failureRun := 0
            state := if e.state = .suspect ∨ e.state = .silent then .active else e.state }
        else { e with completed := satInc e.completed }) ∧
    ((o = .cancelled ∨ o = .portDisabled ∨ o = .portReset ∨ o = .portFaulted ∨ o = .stationQuarantined) →
      e.complete kind o = e)

/-- With every code tried the sweep takes the longest run of passing codes, the lowest start among equals. A run of
three or more gives the station its middle code with origin SWEPT and the window; a shorter one, or none, leaves the
station as it was. The table is written first, then SWEEP_DONE is queued, and the port decides again. So it is with
each event that gives the last probe its result: the reply timeout, that of a held timer among them, a start in the
turnaround, a head in AWAITING that is not the reply's, its strike or quarantine made first, a head that interrupts the
reply, a collision short of the contention fault, and the end of the reply frame, with PASS or FAIL; a character's start
bit has been taken before it. -/
def Obligations.SweepChoosesTheLongestRun : Prop :=
  (∀ map : List PassEntry,
    let run := chooseRun map
    (∀ i, run.start ≤ i → i < run.start + run.width → map[i]? = some .pass) ∧
    (∀ start width, 1 ≤ width → (∀ i, start ≤ i → i < start + width → map[i]? = some .pass) →
      width ≤ run.width ∧ (width = run.width → run.start ≤ start))) ∧
  (∀ (s : State) (p : PortId) (c : Instr) (ph : Phase) (r : ProbeRun) (w : Sweep), s.Hears p →
    (s.port p).inFlight = some ⟨ph, .probe r⟩ → w.next = 31 →
    let chooses (m t : State) (q : Port) (result : PassEntry) : Prop :=
      let map := w.map.set r.code.toNat result
      let run := chooseRun map
      let middle := run.start + (run.width - 1) / 2
      let ended : Port := { q with inFlight := none, sweep := none, line := q.line.ended }
      Unanswered m t ∧ OnlyPort m t p ∧
        (3 ≤ run.width →
          Reported m t [.sweepDone p w.station w.range (.done middle run.start run.width) map] ∧
          t.port p = Port.refresh (Port.nextWork { ended with
            stations := ended.stations.map fun e =>
              if e.addr = w.station then
                { e with threshold := ⟨w.range, BitVec.ofNat 5 middle⟩, origin := .swept, lastWindow := some run }
              else e })) ∧
        (run.width < 3 →
          Reported m t [.sweepDone p w.station w.range (.noWindow (if run.width = 0 then none else some run)) map] ∧
          t.port p = Port.refresh (Port.nextWork ended))
    (∀ (q : Port) (result : PassEntry), s.RoomFor 1 → (s.port p).sweep = some w →
      ((∃ n before, c = .replyTimeout p ∧ (s.port p).line.reply = .running n ∧ s.AtTimeout p before ∧
          result = .fail ∧ q = { before with lateReply := some r.station }) ∨
       (∃ ch taken n, c = .characterReceived p ch ∧ ph = .awaiting ∧ (s.port p).line.reply = .held n true ∧
          s.TakesUnmarked p ch taken ∧ result = .fail ∧ q = { taken with lateReply := some r.station }) ∨
       ((c = .startInTurnaround p ∨ ∃ l, c = .startBitAccepted p l) ∧ (s.port p).line.receiver = .hunting ∧
          (s.port p).line.driver ≠ .driving ∧ (s.port p).line.turnaround ≠ none ∧
          (s.port p).line.reply = .stopped ∧ result = .fail ∧ q = (s.port p).startTaken false) ∨
       (∃ ch, c = .characterReceived p ch ∧ ph = .awaiting ∧ (s.port p).line.receiver = .inCharacter ∧
          ch.mark = true ∧ result = .fail ∧ s.NotTheReply p ch (some r.station) q) ∨
       (∃ ch waiting before, c = .characterReceived p ch ∧ ph = .receiving ∧
          (s.port p).line.receiver = .inCharacter ∧ ch.mark = true ∧
          (s.port p).line.assembler = .assembling waiting before ∧
          (kindOfHead ch.data ≠ .reply ∨ (s.port p).lateReply = none) ∧ result = .fail ∧
          q = ((s.port p).headOpened ch).strayCounted) ∨
       (c = .collision p ∧ ph = .sending ∧ (s.port p).line.driver = .driving ∧ (s.port p).collisionRun < 7 ∧
          result = .fail ∧
          q = { s.port p with
            counters := { (s.port p).counters with collisions := satInc (s.port p).counters.collisions }
            collisionRun := (s.port p).collisionRun + 1
            line := { (s.port p).line with driver := .released, sending := [], receiver := .waitRest } }) ∨
       (∃ rec good, ph = .receiving ∧ (s.port p).line.reply = .stopped ∧ s.FrameEnds p c q rec good ∧
          result = if good = true ∧ rec.count = some 16 ∧ rec.payload = probePattern r.code then .pass else .fail)) →
      ∃ t, exec c s = .next t ∧ chooses s t q result) ∧
    (∀ (ch : RxChar) (e : Station),
      let q := (s.port p).headOpened ch
      let a := addrOfHead ch.data
      c = .characterReceived p ch → ph = .awaiting → (s.port p).line.receiver = .inCharacter → ch.mark = true →
      kindOfHead ch.data = .reply → r.station ≠ a → q.station a = some e → e.strikes = 1 →
      (q.quarantined a).sweep = some w → s.RoomFor ((q.quarantineNotices p a).length + 2) →
      ∃ m t, exec c s = .next t ∧ Quarantines s m p q a (q.quarantined a) ∧ chooses m t (q.quarantined a) .fail))

/-! ### Termination -/

/-- The selection table of R102, its rows from the top. -/
def Obligations.TerminationFollowsTheTable : Prop :=
  ∀ q : Port,
    let parkOr : Selection := match q.profile.park with
      | some code => ⟨.park, code⟩
      | none => ⟨.highZ, 0⟩
    let nominalOr : Selection :=
      if q.profile.hold = true then
        match q.profile.nominal with
        | some code => ⟨.nominal, code⟩
        | none => parkOr
      else parkOr
    let listenOr : Selection := match q.profile.listen with
      | some code => ⟨.listen, code⟩
      | none => nominalOr
    q.selectTermination =
      if q.state = .off ∨ q.state = .doze ∨ q.state = .faulted .trim ∨ q.state = .faulted .stuck ∨
          q.state = .faulted .contention then ⟨.highZ, 0⟩
      else if q.phase = some .sending then ⟨.highZ, 0⟩
      else if q.claim = .window then parkOr
      else if q.phase = some .turnaround ∨ q.phase = some .awaiting ∨ q.phase = some .receiving then listenOr
      else nominalOr

/-! ### Calibration -/

/-- The interval of a drift record in R131's three steps; and every command leaves the drift record and the interval as
they were, but for the resets and start-up, which put them at their power-on values, and SET_DRIFT, which leaves the
interval that its record gives. -/
def Obligations.IntervalIsComputedFromTheDrift : Prop :=
  (∀ dT dV : Nat,
    intervalOf dT dV =
      if dT = 0 ∧ dV = 0 then 60000
      else if 4000000000 / (1800 * dT + 120 * dV) < 100 then 100
      else if 60000 < 4000000000 / (1800 * dT + 120 * dV) then 60000
      else 4000000000 / (1800 * dT + 120 * dV)) ∧
  State.reset.trim.interval = 60000 ∧
  (∀ (c : Instr) (s t : State), exec c s = .next t →
    (t.trim.interval = s.trim.interval ∧ t.trim.dT = s.trim.dT ∧ t.trim.dV = s.trim.dV) ∨
    ((c = .powerOn ∨ c = .resetNAssert ∨ (∃ sel, c = .resetNRelease sel) ∨ ∃ sel, c = .hubResetCarriedOut sel) ∧
      t.trim.interval = 60000 ∧ t.trim.dT = 0 ∧ t.trim.dV = 0) ∨
    (c = .setDrift ∧ t.trim.interval = intervalOf t.trim.dT t.trim.dV))

/-- A port engine takes the oldest new interval: a longer running timer is cut to it, any other keeps its time or its
condition, and no other port is touched. -/
def Obligations.NewIntervalCutsRunningTimers : Prop :=
  ∀ (s : State) (p : PortId) (v : Nat) (rest : List Nat), s.power = .running → (s.port p).newIntervals = v :: rest →
    ∃ t, exec (.newInterval p) s = .next t ∧ Quiet s t p ∧
      t.port p = Port.refresh { s.port p with
        newIntervals := rest
        interval := v
        timer := match (s.port p).timer with
          | .running ms => if v < ms then .running v else .running ms
          | .stopped => .stopped
          | .expired => .expired }

/-- A quick-cal timer whose remaining time reaches 0 expires, and with the claim NONE hands over an AUTO QUICK request
with a new claim number; with any other claim the expiry is dropped. The time that it had left passes for every port
alike: another timer counts it down, one that had less left has expired within it, and one that reaches 0 together with
this one waits there for its own expiry, which lets no more time pass (log 8). A stopped or an expired timer does nothing, and a timer that a final outcome has just restarted does not expire before the closure. A
request that reaches the trim unit enters the tail of the queue, granted at once if the reference is free. -/
def Obligations.ExpiryAsksForAQuickCalibration : Prop :=
  ∀ (s : State) (p : PortId), s.power = .running →
    (∀ ms, (s.port p).timer = .running ms → ¬ s.Closing p →
      ∃ t, exec (.quickCalExpiry p) s = .next t ∧ Unanswered s t ∧ Reported s t [] ∧ t.cmd = s.cmd ∧
        t.trim = s.trim ∧ t.port p = ((s.port p).timedOut p).refresh ∧ ∀ p', p' ≠ p → TimePasses s t p' ms) ∧
    ((∀ ms, (s.port p).timer ≠ .running ms) → exec (.quickCalExpiry p) s = .next s) ∧
    (s.Closing p → exec (.quickCalExpiry p) s = .next s) ∧
    (∀ r rest, (s.port p).toTrim = .request r :: rest → r.port = p →
      (∀ h, s.trim.holder = some h → h.request.port ≠ p) → (∀ e ∈ s.trim.queue, e.port ≠ p) →
      (s.trim.holder ≠ none →
        ∃ t, exec (.calibrationRequest p) s = .next t ∧ Unanswered s t ∧ Reported s t [] ∧ t.cmd = s.cmd ∧
          t.trim = { s.trim with queue := s.trim.queue ++ [r] } ∧ (∀ p', p' ≠ p → t.port p' = s.port p') ∧
          t.port p = Port.refresh { s.port p with toTrim := rest }) ∧
      (s.trim.holder = none → s.trim.queue = [] →
        ∃ t, exec (.calibrationRequest p) s = .next t ∧ Unanswered s t ∧ Reported s t [] ∧ t.cmd = s.cmd ∧
          t.trim = { s.trim with holder := some ⟨r, .granted⟩ } ∧ (∀ p', p' ≠ p → t.port p' = s.port p') ∧
          t.port p = Port.refresh { s.port p with
            toTrim := rest, fromTrim := (s.port p).fromTrim ++ [.granted r.number] }))

/-- What a port engine does with a message of the trim unit: it discards one whose number is not its claim's, or that
finds its claim NONE; an upgrade makes TRIMMING (QUICK) TRIMMING (FULL) with its PORT_STATE; a grant opens the window
of a port with nothing in flight, and otherwise waits. -/
def Obligations.PortTakesUpgradesAndGrants : Prop :=
  ∀ (s : State) (p : PortId) (rest : List TrimMsg), s.power = .running →
    let q : Port := { s.port p with fromTrim := rest }
    (∀ (m : TrimMsg) (c : Instr), (s.port p).fromTrim = m :: rest → (q.claim = .none ∨ m.number ≠ q.claimNumber) →
      (c = match m with
        | .upgraded _ => .upgrade p
        | .granted _ => .grant p
        | .windowEnd _ _ _ _ _ => .windowEnd p
        | .closure _ _ => .closure p) →
      ∃ t, exec c s = .next t ∧ Quiet s t p ∧ t.port p = q.refresh) ∧
    ((s.port p).fromTrim = .upgraded q.claimNumber :: rest → q.claim ≠ .none →
      (q.state = .trimming .quick → s.RoomFor 1 →
        ∃ t, exec (.upgrade p) s = .next t ∧ Unanswered s t ∧
          Reported s t [.portState p (.trimming .full) .upgraded] ∧ OnlyPort s t p ∧
          t.port p = Port.refresh { q with
            state := .trimming .full, claimKind := some .full, timer := .stopped }) ∧
      (q.state ≠ .trimming .quick →
        ∃ t, exec (.upgrade p) s = .next t ∧ Quiet s t p ∧
          t.port p = Port.refresh { q with claimKind := some .full })) ∧
    ((s.port p).fromTrim = .granted q.claimNumber :: rest → q.claim = .queued →
      (q.inFlight = none → q.state.receives = true →
        ∃ t, exec (.grant p) s = .next t ∧ Quiet s t p ∧
          t.port p = Port.refresh { q with
            claim := .window, toTrim := q.toTrim ++ [.windowOpen q.claimNumber] }) ∧
      (q.inFlight ≠ none → q.state.inService = true →
        ∃ t, exec (.grant p) s = .next t ∧ Quiet s t p ∧ t.port p = Port.refresh { q with claim := .granted }))

/-- Window open, taken in GRANTED, begins the measurement: the window-start codes are kept, the driver is disconnected,
a FULL measurement sets its first trial code, and the detector's one spoil report becomes possible (log 16 for the
receiver that must run). A spoil report taken in MEASURING puts the codes back and ends the window SPOILED, or FAILED
on attempt 3. -/
def Obligations.WindowOpensAndIsSpoiled : Prop :=
  ∀ (s : State) (p : PortId) (r : Request), s.power = .running → r.port = p →
    (∀ rest, (s.port p).toTrim = .windowOpen r.number :: rest → s.trim.holder = some ⟨r, .granted⟩ →
      (s.port p).state.receives = true →
      let start := (s.port p).line.trim
      ∃ t, exec (.windowOpen p) s = .next t ∧ Unanswered s t ∧ Reported s t [] ∧ t.cmd = s.cmd ∧
        (∀ p', p' ≠ p → t.port p' = s.port p') ∧
        t.trim = { s.trim with holder := some ⟨r, .measuring start
          (if r.kind = .full then .full .pu 32 0 else .quick .pu false)⟩ } ∧
        t.port p = Port.refresh { s.port p with
          toTrim := rest
          line := { (s.port p).line with
            trim := if r.kind = .full then { start with pu := 32 } else start
            driver := .disconnected
            spoilWatch := some r.number } }) ∧
    (∀ rest start engine, (s.port p).spoils = r.number :: rest → s.trim.holder = some ⟨r, .measuring start engine⟩ →
      let o : WindowOutcome := if r.attempt < 3 then .spoiled else .failed
      ∃ t, exec (.spoilReport p) s = .next t ∧ Unanswered s t ∧ Reported s t [] ∧ t.cmd = s.cmd ∧
        (∀ p', p' ≠ p → t.port p' = s.port p') ∧
        t.trim = { s.trim with holder := some ⟨r, .ending start o false⟩ } ∧
        t.port p = Port.refresh { s.port p with
          spoils := rest
          fromTrim := (s.port p).fromTrim ++ [.windowEnd r.number o r.kind r.origin false]
          line := { (s.port p).line with trim := start, spoilWatch := none } }) ∧
    (∀ n rest, (s.port p).spoils = n :: rest →
      (∀ h, s.trim.holder = some h → h.request.port = p → h.request.number = n →
        ∀ start engine, h.phase ≠ .measuring start engine) →
      ∃ t, exec (.spoilReport p) s = .next t ∧ Quiet s t p ∧ t.port p = Port.refresh { s.port p with spoils := rest })

/-- A FULL measurement finds every leg's right code in eighteen comparisons, whatever the codes: it ends RAIL if one of
them is 0 or 63 and DONE otherwise, with the changed flag set exactly if they differ from the window-start codes. -/
def Obligations.FullMeasurementFindsTheRightCodes : Prop :=
  ∀ (s : State) (r : Request) (start right : Trim), s.power = .running →
    s.trim.holder = some ⟨r, .measuring start (.full .pu 32 0)⟩ → (s.port r.port).line.trim = { start with pu := 32 } →
    let o : WindowOutcome :=
      if right.pu = 0 ∨ right.pu = 63 ∨ right.pd = 0 ∨ right.pd = 63 ∨ right.tc = 0 ∨ right.tc = 63 then .rail
      else .done
    let changed := decide (right ≠ start)
    ∃ t, measureFull right 18 s = .next t ∧ Unanswered s t ∧ Reported s t [] ∧ t.cmd = s.cmd ∧
      (∀ p', p' ≠ r.port → t.port p' = s.port p') ∧
      t.trim = { s.trim with holder := some ⟨r, .ending start o changed⟩ } ∧
      t.port r.port = Port.refresh { s.port r.port with
        fromTrim := (s.port r.port).fromTrim ++ [.windowEnd r.number o r.kind r.origin changed]
        line := { (s.port r.port).line with trim := right, spoilWatch := none } }

/-- One QUICK comparison moves the leg's code by at most one step in the direction answered, and not past 0 or 63, where
the leg is at its rail; after the last leg the window ends RAIL if a leg was at its rail and DONE otherwise. -/
def Obligations.QuickComparisonMovesOneStep : Prop :=
  ∀ (s : State) (r : Request) (start : Trim) (leg : Leg) (rail : Bool) (answer : Comparison), s.power = .running →
    s.trim.holder = some ⟨r, .measuring start (.quick leg rail)⟩ →
    (answer = .down ∨ answer = .up ∨ answer = .hold) →
    let codes := (s.port r.port).line.trim
    let code := codes.get leg
    let atRail := rail || decide ((answer = .down ∧ code = 0) ∨ (answer = .up ∧ code = 63))
    let moved : TrimCode :=
      if answer = .down then (if code = 0 then 0 else code - 1)
      else if answer = .up then (if code = 63 then 63 else code + 1)
      else code
    let after := codes.put leg moved
    let o : WindowOutcome := if atRail = true then .rail else .done
    ∃ t, exec (.comparisonDecided answer) s = .next t ∧ Unanswered s t ∧ Reported s t [] ∧ t.cmd = s.cmd ∧
      (∀ p', p' ≠ r.port → t.port p' = s.port p') ∧
      (∀ next, (leg = .pu ∧ next = .pd ∨ leg = .pd ∧ next = .tc) →
        t.trim = { s.trim with holder := some ⟨r, .measuring start (.quick next atRail)⟩ } ∧
        t.port r.port = Port.refresh { s.port r.port with line := { (s.port r.port).line with trim := after } }) ∧
      (leg = .tc →
        t.trim = { s.trim with holder := some ⟨r, .ending start o (decide (after ≠ start))⟩ } ∧
        t.port r.port = Port.refresh { s.port r.port with
          fromTrim := (s.port r.port).fromTrim ++ [.windowEnd r.number o r.kind r.origin (decide (after ≠ start))]
          line := { (s.port r.port).line with trim := after, spoilWatch := none } })

/-- The window end taken with the claim at WINDOW: SPOILED only acknowledges; a final outcome moves the port by R26's
table, counts a QUICK one, restarts the timer of a port in service from the full interval, tells a sweep of a trim
change, and acknowledges. FAILED in TRIMMING (FULL) faults the port with its claim already NONE. -/
def Obligations.WindowEndMovesThePort : Prop :=
  ∀ (s : State) (p : PortId) (n : Byte) (o : WindowOutcome) (k : CalKind) (og : CalOrigin) (changed : Bool)
    (rest : List TrimMsg), s.power = .running → (s.port p).fromTrim = .windowEnd n o k og changed :: rest →
    (s.port p).claim = .window → (s.port p).claimNumber = n →
    let q : Port := { s.port p with fromTrim := rest, toTrim := (s.port p).toTrim ++ [.acknowledge n] }
    let tells := decide (o = .done ∨ o = .rail) && changed
    (o = .spoiled → ∃ t, exec (.windowEnd p) s = .next t ∧ Quiet s t p ∧ t.port p = q.refresh) ∧
    (∀ st st' cause, (st, o, st', cause) ∈ windowMoves → q.state = st → s.RoomFor 2 →
      ∃ t, exec (.windowEnd p) s = .next t ∧ Unanswered s t ∧
        Reported s t ((match cause with
          | some tc => [.portState p st' tc]
          | none => []) ++ (if tells then changeNotices p q.sweep else [])) ∧
        OnlyPort s t p ∧
        t.port p = Port.refresh { q with
          state := st'
          counters := q.counters.counted k o
          timer := .running q.interval
          sweep := if tells then sweepAfterChange q.sweep else q.sweep }) ∧
    (q.state = .trimming .full → o = .failed →
      s.RoomFor (1 + (q.flushNotices p .portFaulted .portFaulted).length) →
      ∃ t, exec (.windowEnd p) s = .next t ∧
        FaultsInto s t p q .trim .calFailed
          { Port.faultedWith { q with claim := .none } .trim with
            counters := q.counters.counted k o, claimKind := none })

/-- An acknowledgement in ENDING closes the window: CAL_DONE where R128 requires one, the reference released, a SPOILED
request back at the tail with its attempt increased, the closure, and then the grant of the queue head. The closure
makes the claim NONE, or QUEUED after SPOILED, reconnects the driver, and has the port decide its next work. -/
def Obligations.AcknowledgementClosesTheWindow : Prop :=
  ∀ (s : State) (p : PortId), s.power = .running →
    (∀ r rest start changed o, (s.port p).toTrim = .acknowledge r.number :: rest → r.port = p →
      s.trim.holder = some ⟨r, .ending start o changed⟩ → s.RoomFor 1 →
      let requeued := decide (o = .spoiled)
      let ns := match o with
        | .done => calNotices r .done (s.port p).line.trim
        | .rail => calNotices r .rail (s.port p).line.trim
        | .failed => calNotices r .failed (s.port p).line.trim
        | .spoiled => []
      ∃ t, exec (.acknowledgement p) s = .next t ∧
        Releases s t p ns (s.trim.queue ++ if requeued then [{ r with attempt := r.attempt + 1 }] else [])
          { s.port p with toTrim := rest, fromTrim := (s.port p).fromTrim ++ [.closure r.number requeued] }) ∧
    (∀ n requeued rest, (s.port p).fromTrim = .closure n requeued :: rest → (s.port p).claim = .window →
      (s.port p).claimNumber = n →
      ∃ t, exec (.closure p) s = .next t ∧ Quiet s t p ∧
        t.port p = Port.refresh (Port.nextWork { s.port p with
          fromTrim := rest
          claim := if requeued then .queued else .none
          claimKind := if requeued then (s.port p).claimKind else none
          line := { (s.port p).line with
            driver := if (s.port p).line.driver = .disconnected then .released else (s.port p).line.driver } }))

/-- A withdrawal ends the port's request ABANDONED wherever it stands: from the queue, where those behind it move up, or
from the holder, where an open window's codes are put back first; then the queue head is granted. A stale withdrawal is
discarded. That the CAL_DONE stands after all the notices of the flush that sent the withdrawal is the model's choice
(log 25). -/
def Obligations.WithdrawalAbandonsTheCalibration : Prop :=
  ∀ (s : State) (p : PortId) (n : Byte) (rest : List PortMsg), s.power = .running →
    (s.port p).toTrim = .withdraw n :: rest →
    let q : Port := { s.port p with toTrim := rest }
    (∀ r phase, s.trim.holder = some ⟨r, phase⟩ → r.port = p → r.number = n → s.RoomFor 1 →
      let codes : Trim := match phase with
        | .granted => q.line.trim
        | .measuring start _ => start
        | .ending start _ _ => start
      ∃ t, exec (.withdrawal p) s = .next t ∧
        Releases s t p [.calDone r .abandoned codes] s.trim.queue
          { q with line := { q.line with
              trim := codes
              spoilWatch := none
              driver := if q.line.driver = .disconnected then .released else q.line.driver } }) ∧
    (∀ r h, s.trim.holder = some h → ¬ (h.request.port = p ∧ h.request.number = n) →
      s.trim.queue.find? (fun e => e.port == p && e.number == n) = some r → s.RoomFor 1 →
      ∃ t, exec (.withdrawal p) s = .next t ∧ Unanswered s t ∧
        Reported s t [.calDone r .abandoned q.line.trim] ∧ t.cmd = s.cmd ∧
        t.trim = { s.trim with queue := s.trim.queue.filter fun e => !(e.port == p && e.number == n) } ∧
        (∀ p', p' ≠ p → t.port p' = s.port p') ∧ t.port p = q.refresh) ∧
    ((∀ h, s.trim.holder = some h → ¬ (h.request.port = p ∧ h.request.number = n)) →
      (∀ e ∈ s.trim.queue, ¬ (e.port = p ∧ e.number = n)) →
      ∃ t, exec (.withdrawal p) s = .next t ∧ Quiet s t p ∧ t.port p = q.refresh)

/-! ### Invariants -/

/-- Every step keeps every port's computed records current, its selected termination and its stuck-line timer, whatever
the rest of the state; and a port with current records has HIGH_Z termination while OFF, DOZE or FAULTED (law 14), and
while its exchange is in SENDING. -/
def Obligations.StepsKeepTheRecordsCurrent : Prop :=
  (∀ s t : State, s.EveryPort Port.RecordsCurrent → step s = .next t → t.EveryPort Port.RecordsCurrent) ∧
  (∀ q : Port, q.RecordsCurrent → q.OffUnterminated ∧ (q.phase = some .sending → q.selected = ⟨.highZ, 0⟩))

/-- Every step keeps these together: work in flight only in READY and DEGRADED (law 8), no open window beside it (law
3), a stopped quick-cal timer in every other state (R133), a line that drives only in SENDING and runs its turnaround
timer only in TURNAROUND, and no late-reply record in an exchange's four phases (R88). With current records, a driver
that sends then has HIGH_Z termination (law 4). -/
def Obligations.StepsKeepTheExchangeLawful : Prop :=
  (∀ s t : State,
    s.EveryPort (fun q => q.InFlightInService ∧ q.WindowAlone ∧ q.TimerInService ∧ q.LineFollowsPhase ∧
      q.LateReplyCleared) →
    step s = .next t →
    t.EveryPort (fun q => q.InFlightInService ∧ q.WindowAlone ∧ q.TimerInService ∧ q.LineFollowsPhase ∧
      q.LateReplyCleared)) ∧
  (∀ q : Port, q.RecordsCurrent → q.LineFollowsPhase → q.SendsUnterminated)

/-- Every step keeps the capacities of a port: a queue of at most sixteen in class order (law 6), a table of at most
sixteen with no address twice (law 10), and a collision run of at most eight (R37). -/
def Obligations.StepsKeepThePortCapacities : Prop :=
  ∀ s t : State,
    s.EveryPort (fun q => q.QueueFits ∧ q.QueueOrdered ∧ q.TableFits ∧ q.RunFits) → step s = .next t →
    t.EveryPort (fun q => q.QueueFits ∧ q.QueueOrdered ∧ q.TableFits ∧ q.RunFits)

/-- Every step keeps the hub's own limits: the host link's queues in their places, no tag live twice (law 7), at most
one queued request per port and none of the holder's (law 2), and the drift record and the interval in range. -/
def Obligations.StepsKeepTheHubLimits : Prop :=
  ∀ s t : State,
    (s.link.Fits ∧ s.TagsDistinct ∧ s.trim.QueueAlone ∧ s.trim.InRange) → step s = .next t →
    (t.link.Fits ∧ t.TagsDistinct ∧ t.trim.QueueAlone ∧ t.trim.InRange)

/-- Every invariant above holds at reset. -/
def Obligations.ResetMeetsEveryInvariant : Prop :=
  State.reset.EveryPort (fun q => q.RecordsCurrent ∧ q.InFlightInService ∧ q.WindowAlone ∧ q.TimerInService ∧
    q.LineFollowsPhase ∧ q.LateReplyCleared ∧ q.QueueFits ∧ q.QueueOrdered ∧ q.TableFits ∧ q.RunFits) ∧
  State.reset.link.Fits ∧ State.reset.TagsDistinct ∧ State.reset.trim.QueueAlone ∧ State.reset.trim.InRange
end

