-- ==== Sys2Proof/Laws/State.lean ====
section
/-! SUPPORT. Field by field, what the elementary updates of the state leave and write: one lemma per field and
update, so that no proof unfolds a record update. -/

namespace Sys2Proof.Machine

/-! ### Fields left alone -/

@[simp] theorem State.setPort_power (s : State) (p : PortId) (q : Port) : (s.setPort p q).power = s.power := rfl
@[simp] theorem State.setPort_link (s : State) (p : PortId) (q : Port) : (s.setPort p q).link = s.link := rfl
@[simp] theorem State.setPort_cmd (s : State) (p : PortId) (q : Port) : (s.setPort p q).cmd = s.cmd := rfl
@[simp] theorem State.setPort_trim (s : State) (p : PortId) (q : Port) : (s.setPort p q).trim = s.trim := rfl
@[simp] theorem State.setPort_pending (s : State) (p : PortId) (q : Port) : (s.setPort p q).pending = s.pending := rfl

@[simp] theorem State.modPort_power (s : State) (p : PortId) (f : Port → Port) : (s.modPort p f).power = s.power := rfl
@[simp] theorem State.modPort_link (s : State) (p : PortId) (f : Port → Port) : (s.modPort p f).link = s.link := rfl
@[simp] theorem State.modPort_cmd (s : State) (p : PortId) (f : Port → Port) : (s.modPort p f).cmd = s.cmd := rfl
@[simp] theorem State.modPort_trim (s : State) (p : PortId) (f : Port → Port) : (s.modPort p f).trim = s.trim := rfl
@[simp] theorem State.modPort_pending (s : State) (p : PortId) (f : Port → Port) : (s.modPort p f).pending = s.pending := rfl

@[simp] theorem State.mapPorts_power (s : State) (f : PortId → Port → Port) : (s.mapPorts f).power = s.power := rfl
@[simp] theorem State.mapPorts_link (s : State) (f : PortId → Port → Port) : (s.mapPorts f).link = s.link := rfl
@[simp] theorem State.mapPorts_cmd (s : State) (f : PortId → Port → Port) : (s.mapPorts f).cmd = s.cmd := rfl
@[simp] theorem State.mapPorts_trim (s : State) (f : PortId → Port → Port) : (s.mapPorts f).trim = s.trim := rfl
@[simp] theorem State.mapPorts_pending (s : State) (f : PortId → Port → Port) : (s.mapPorts f).pending = s.pending := rfl

@[simp] theorem postNotice_power (n : Notice) (s : State) : (postNotice n s).power = s.power := rfl
@[simp] theorem postNotice_cmd (n : Notice) (s : State) : (postNotice n s).cmd = s.cmd := rfl
@[simp] theorem postNotice_trim (n : Notice) (s : State) : (postNotice n s).trim = s.trim := rfl
@[simp] theorem postNotice_pending (n : Notice) (s : State) : (postNotice n s).pending = s.pending := rfl
@[simp] theorem postNotice_port (n : Notice) (s : State) (p' : PortId) : (postNotice n s).port p' = s.port p' := rfl

@[simp] theorem postResponse_power (r : Response) (s : State) : (postResponse r s).power = s.power := rfl
@[simp] theorem postResponse_cmd (r : Response) (s : State) : (postResponse r s).cmd = s.cmd := rfl
@[simp] theorem postResponse_trim (r : Response) (s : State) : (postResponse r s).trim = s.trim := rfl
@[simp] theorem postResponse_pending (r : Response) (s : State) : (postResponse r s).pending = s.pending := rfl
@[simp] theorem postResponse_port (r : Response) (s : State) (p' : PortId) : (postResponse r s).port p' = s.port p' := rfl

@[simp] theorem addTag_power (tag : Word16) (p : PortId) (s : State) : (addTag tag p s).power = s.power := rfl
@[simp] theorem addTag_link (tag : Word16) (p : PortId) (s : State) : (addTag tag p s).link = s.link := rfl
@[simp] theorem addTag_trim (tag : Word16) (p : PortId) (s : State) : (addTag tag p s).trim = s.trim := rfl
@[simp] theorem addTag_pending (tag : Word16) (p : PortId) (s : State) : (addTag tag p s).pending = s.pending := rfl
@[simp] theorem addTag_port (tag : Word16) (p : PortId) (s : State) (p' : PortId) : (addTag tag p s).port p' = s.port p' := rfl

@[simp] theorem dropTag_power (tag : Word16) (s : State) : (dropTag tag s).power = s.power := rfl
@[simp] theorem dropTag_link (tag : Word16) (s : State) : (dropTag tag s).link = s.link := rfl
@[simp] theorem dropTag_trim (tag : Word16) (s : State) : (dropTag tag s).trim = s.trim := rfl
@[simp] theorem dropTag_pending (tag : Word16) (s : State) : (dropTag tag s).pending = s.pending := rfl
@[simp] theorem dropTag_port (tag : Word16) (s : State) (p' : PortId) : (dropTag tag s).port p' = s.port p' := rfl

@[simp] theorem State.setTrim_power (s : State) (u : TrimUnit) : (s.setTrim u).power = s.power := rfl
@[simp] theorem State.setTrim_link (s : State) (u : TrimUnit) : (s.setTrim u).link = s.link := rfl
@[simp] theorem State.setTrim_cmd (s : State) (u : TrimUnit) : (s.setTrim u).cmd = s.cmd := rfl
@[simp] theorem State.setTrim_pending (s : State) (u : TrimUnit) : (s.setTrim u).pending = s.pending := rfl
@[simp] theorem State.setTrim_port (s : State) (u : TrimUnit) (p' : PortId) : (s.setTrim u).port p' = s.port p' := rfl

@[simp] theorem setFramer_power (f : Framer) (s : State) : (setFramer f s).power = s.power := rfl
@[simp] theorem setFramer_cmd (f : Framer) (s : State) : (setFramer f s).cmd = s.cmd := rfl
@[simp] theorem setFramer_trim (f : Framer) (s : State) : (setFramer f s).trim = s.trim := rfl
@[simp] theorem setFramer_pending (f : Framer) (s : State) : (setFramer f s).pending = s.pending := rfl
@[simp] theorem setFramer_port (f : Framer) (s : State) (p' : PortId) : (setFramer f s).port p' = s.port p' := rfl

@[simp] theorem State.popFrame_power (s : State) : (s.popFrame).power = s.power := rfl
@[simp] theorem State.popFrame_cmd (s : State) : (s.popFrame).cmd = s.cmd := rfl
@[simp] theorem State.popFrame_trim (s : State) : (s.popFrame).trim = s.trim := rfl
@[simp] theorem State.popFrame_pending (s : State) : (s.popFrame).pending = s.pending := rfl
@[simp] theorem State.popFrame_port (s : State) (p' : PortId) : (s.popFrame).port p' = s.port p' := rfl

/-! ### Ports -/

/-- States with equal fields and equal ports are equal. -/
theorem State.ext_ports {s t : State} (hpower : s.power = t.power) (hlink : s.link = t.link) (hcmd : s.cmd = t.cmd)
    (htrim : s.trim = t.trim) (hports : ∀ p, s.port p = t.port p) (hpending : s.pending = t.pending) : s = t := by
  cases s; cases t
  simp only [State.mk.injEq]
  refine ⟨hpower, hlink, hcmd, htrim, ?_, hpending⟩
  ext i hi
  exact hports ⟨i, hi⟩

@[simp] theorem State.setPort_port_same (s : State) (p : PortId) (q : Port) :
    (s.setPort p q).port p = q.refresh := by
  simp [State.setPort, State.port, Vector.get_eq_getElem]

theorem State.setPort_port_other (s : State) {p p' : PortId} (q : Port) (h : p' ≠ p) :
    (s.setPort p q).port p' = s.port p' := by
  have hne : p.val ≠ p'.val := fun e => h (Fin.ext e.symm)
  simp [State.setPort, State.port, Vector.get_eq_getElem, hne]

theorem State.setPort_port (s : State) (p p' : PortId) (q : Port) :
    (s.setPort p q).port p' = if p' = p then q.refresh else s.port p' := by
  split
  · next h => subst h; simp
  · next h => exact s.setPort_port_other q h

@[simp] theorem State.modPort_port_same (s : State) (p : PortId) (f : Port → Port) :
    (s.modPort p f).port p = (f (s.port p)).refresh := by simp [State.modPort]

theorem State.modPort_port_other (s : State) {p p' : PortId} (f : Port → Port) (h : p' ≠ p) :
    (s.modPort p f).port p' = s.port p' := s.setPort_port_other _ h

theorem State.modPort_port (s : State) (p p' : PortId) (f : Port → Port) :
    (s.modPort p f).port p' = if p' = p then (f (s.port p)).refresh else s.port p' := s.setPort_port p p' _

@[simp] theorem State.mapPorts_port (s : State) (f : PortId → Port → Port) (p : PortId) :
    (s.mapPorts f).port p = (f p (s.port p)).refresh := by
  simp [State.mapPorts, State.port, Vector.get_eq_getElem]

@[simp] theorem State.reset_port (p : PortId) : State.reset.port p = Port.reset := by
  simp [State.reset, State.port, Vector.get_eq_getElem]

@[simp] theorem State.setPort_setPort (s : State) (p : PortId) (q q' : Port) :
    (s.setPort p q).setPort p q' = s.setPort p q' := by simp [State.setPort]

theorem State.setPort_comm (s : State) {p p' : PortId} (q q' : Port) (h : p ≠ p') :
    (s.setPort p q).setPort p' q' = (s.setPort p' q').setPort p q := by
  apply State.ext_ports <;> try rfl
  intro i
  simp only [State.setPort_port]
  split_ifs with h1 h2 <;> simp_all

/-! ### Tags and the trim unit -/

@[simp] theorem addTag_live (tag : Word16) (p : PortId) (s : State) :
    (addTag tag p s).cmd.live = s.cmd.live ++ [⟨tag, p⟩] := rfl

@[simp] theorem addTag_draining (tag : Word16) (p : PortId) (s : State) :
    (addTag tag p s).cmd.draining = s.cmd.draining := rfl

@[simp] theorem dropTag_live (tag : Word16) (s : State) :
    (dropTag tag s).cmd.live = s.cmd.live.filter fun e => e.tag != tag := rfl

@[simp] theorem dropTag_draining (tag : Word16) (s : State) : (dropTag tag s).cmd.draining = s.cmd.draining := rfl

@[simp] theorem State.setTrim_trim (s : State) (u : TrimUnit) : (s.setTrim u).trim = u := rfl

@[simp] theorem State.popFrame_inbound (s : State) : s.popFrame.link.inbound = s.link.inbound.tail := rfl

/-! ### The records a port computes -/

@[simp] theorem Port.refresh_settings (q : Port) : q.refresh.settings = q.settings := rfl
@[simp] theorem Port.refresh_state (q : Port) : q.refresh.state = q.state := rfl
@[simp] theorem Port.refresh_counters (q : Port) : q.refresh.counters = q.counters := rfl
@[simp] theorem Port.refresh_collisionRun (q : Port) : q.refresh.collisionRun = q.collisionRun := rfl
@[simp] theorem Port.refresh_queue (q : Port) : q.refresh.queue = q.queue := rfl
@[simp] theorem Port.refresh_inFlight (q : Port) : q.refresh.inFlight = q.inFlight := rfl
@[simp] theorem Port.refresh_sweep (q : Port) : q.refresh.sweep = q.sweep := rfl
@[simp] theorem Port.refresh_claim (q : Port) : q.refresh.claim = q.claim := rfl
@[simp] theorem Port.refresh_claimNumber (q : Port) : q.refresh.claimNumber = q.claimNumber := rfl
@[simp] theorem Port.refresh_claimKind (q : Port) : q.refresh.claimKind = q.claimKind := rfl
@[simp] theorem Port.refresh_timer (q : Port) : q.refresh.timer = q.timer := rfl
@[simp] theorem Port.refresh_interval (q : Port) : q.refresh.interval = q.interval := rfl
@[simp] theorem Port.refresh_profile (q : Port) : q.refresh.profile = q.profile := rfl
@[simp] theorem Port.refresh_lateReply (q : Port) : q.refresh.lateReply = q.lateReply := rfl
@[simp] theorem Port.refresh_stations (q : Port) : q.refresh.stations = q.stations := rfl
@[simp] theorem Port.refresh_toTrim (q : Port) : q.refresh.toTrim = q.toTrim := rfl
@[simp] theorem Port.refresh_fromTrim (q : Port) : q.refresh.fromTrim = q.fromTrim := rfl
@[simp] theorem Port.refresh_newIntervals (q : Port) : q.refresh.newIntervals = q.newIntervals := rfl
@[simp] theorem Port.refresh_spoils (q : Port) : q.refresh.spoils = q.spoils := rfl
@[simp] theorem Port.refresh_receiver (q : Port) : q.refresh.line.receiver = q.line.receiver := rfl
@[simp] theorem Port.refresh_assembler (q : Port) : q.refresh.line.assembler = q.line.assembler := rfl
@[simp] theorem Port.refresh_restCount (q : Port) : q.refresh.line.restCount = q.line.restCount := rfl
@[simp] theorem Port.refresh_lastSample (q : Port) : q.refresh.line.lastSample = q.line.lastSample := rfl
@[simp] theorem Port.refresh_gapRunning (q : Port) : q.refresh.line.gapRunning = q.line.gapRunning := rfl
@[simp] theorem Port.refresh_turnaround (q : Port) : q.refresh.line.turnaround = q.line.turnaround := rfl
@[simp] theorem Port.refresh_reply (q : Port) : q.refresh.line.reply = q.line.reply := rfl
@[simp] theorem Port.refresh_driver (q : Port) : q.refresh.line.driver = q.line.driver := rfl
@[simp] theorem Port.refresh_sending (q : Port) : q.refresh.line.sending = q.line.sending := rfl
@[simp] theorem Port.refresh_threshold (q : Port) : q.refresh.line.threshold = q.line.threshold := rfl
@[simp] theorem Port.refresh_trim (q : Port) : q.refresh.line.trim = q.line.trim := rfl
@[simp] theorem Port.refresh_spoilWatch (q : Port) : q.refresh.line.spoilWatch = q.line.spoilWatch := rfl
@[simp] theorem Port.refresh_selected (q : Port) : q.refresh.selected = q.selectTermination := rfl
@[simp] theorem Port.refresh_stuck (q : Port) : q.refresh.line.stuck = q.stuckTimer := rfl
@[simp] theorem Port.refresh_phase (q : Port) : q.refresh.phase = q.phase := rfl
@[simp] theorem Port.refresh_lineIdle (q : Port) : q.refresh.lineIdle = q.lineIdle := rfl
@[simp] theorem Port.refresh_inExchange (q : Port) : q.refresh.inExchange = q.inExchange := rfl
@[simp] theorem Port.refresh_station (q : Port) (a : Addr) : q.refresh.station a = q.station a := rfl
@[simp] theorem Port.refresh_selectTermination (q : Port) : q.refresh.selectTermination = q.selectTermination := rfl
@[simp] theorem Port.refresh_stuckTimer (q : Port) : q.refresh.stuckTimer = q.stuckTimer := rfl
@[simp] theorem Port.refresh_refresh (q : Port) : q.refresh.refresh = q.refresh := rfl

end Sys2Proof.Machine
end

