-- ==== Sys2Proof/Laws/Link.lean ====
section
/-! SUPPORT. What posting a response or a notice does to the two outbound streams: everything the transmitter and the
queues can do, said once. -/

namespace Sys2Proof.Machine

theorem numberFrom_append (b : Byte) (xs ys : List Notice) :
    numberFrom b (xs ++ ys) = numberFrom b xs ++ numberFrom (advance b xs.length) ys := by
  induction xs generalizing b with
  | nil => simp [numberFrom, advance]
  | cons x xs ih =>
    simp only [List.cons_append, numberFrom, ih, List.length_cons, List.cons.injEq, true_and]
    congr 1
    simp only [advance, BitVec.ofNat_add]
    congr 1
    rw [BitVec.add_assoc, BitVec.add_comm 1]
    rfl

@[simp] theorem advance_zero (b : Byte) : advance b 0 = b := by simp [advance]

theorem advance_add (b : Byte) (m n : Nat) : advance (advance b m) n = advance b (m + n) := by
  simp [advance, BitVec.ofNat_add, BitVec.add_assoc]

/-- The transmitter takes frames from the queues to TXD and leaves everything else of the link alone. -/
theorem Link.transmit_kept (l : Link) (d : Bool) :
    (l.transmit d).rate = l.rate ∧ (l.transmit d).receiver = l.receiver ∧ (l.transmit d).framer = l.framer ∧
    (l.transmit d).gapRunning = l.gapRunning ∧ (l.transmit d).inbound = l.inbound ∧
    (l.transmit d).answers = l.answers := by
  unfold Link.transmit Link.takeNotice
  split
  · next htx =>
    split
    · next h => simp [Link.answers, htx, h]
    · next h =>
      split
      · simp
      · split
        · next h' => simp
        · next h' => split <;> simp [Link.answers, Link.enqueue, htx, h]
  · simp
  · simp

@[simp] theorem Link.transmit_rate (l : Link) (d : Bool) : (l.transmit d).rate = l.rate := (l.transmit_kept d).1
@[simp] theorem Link.transmit_receiver (l : Link) (d : Bool) : (l.transmit d).receiver = l.receiver :=
  (l.transmit_kept d).2.1
@[simp] theorem Link.transmit_framer (l : Link) (d : Bool) : (l.transmit d).framer = l.framer :=
  (l.transmit_kept d).2.2.1
@[simp] theorem Link.transmit_gapRunning (l : Link) (d : Bool) : (l.transmit d).gapRunning = l.gapRunning :=
  (l.transmit_kept d).2.2.2.1
@[simp] theorem Link.transmit_inbound (l : Link) (d : Bool) : (l.transmit d).inbound = l.inbound :=
  (l.transmit_kept d).2.2.2.2.1
@[simp] theorem Link.transmit_answers (l : Link) (d : Bool) : (l.transmit d).answers = l.answers :=
  (l.transmit_kept d).2.2.2.2.2

/-- Below 32 notices the transmitter only moves one from the queue to TXD. -/
theorem Link.transmit_reports (l : Link) (d : Bool) (h : l.notices.length < Config.noticePlaces) :
    (l.transmit d).reports = l.reports ∧ (l.transmit d).nextNotice = l.nextNotice ∧ (l.transmit d).lost = l.lost ∧
    (l.transmit d).notices.length ≤ l.notices.length := by
  unfold Link.transmit Link.takeNotice
  split
  · next htx =>
    split
    · next hr => simp [Link.reports, htx]
    · next hr =>
      split
      · simp
      · split
        · next hn => simp
        · next n rest hn =>
          have hne : ¬ (l.notices.length = Config.noticePlaces ∧ l.lost ≠ 0) := by omega
          rw [if_neg hne]
          simp [Link.reports, htx, hn]
  · simp
  · simp

/-- A queued response enters the response stream at its end and touches nothing of the notices. -/
theorem postResponse_spec (r : Response) (s : State) :
    SameReceiver s (postResponse r s) ∧ (postResponse r s).link.inbound = s.link.inbound ∧
    (postResponse r s).link.answers = s.link.answers ++ [r] ∧ Reported s (postResponse r s) [] ∧
    (postResponse r s).link.notices = s.link.notices := by
  have ha : ({ s.link with responses := s.link.responses ++ [r] } : Link).answers = s.link.answers ++ [r] := by
    simp only [Link.answers]; split <;> simp
  refine ⟨⟨by simp [postResponse], by simp [postResponse], by simp [postResponse], by simp [postResponse]⟩,
    by simp [postResponse], by simp only [postResponse, Link.transmit_answers, ha], ?_, ?_⟩
  all_goals
    simp only [postResponse, Link.transmit]
    rcases htx : s.link.tx with _ | r0 | n0 <;> simp only [Reported, Link.reports, htx, numberFrom] <;>
      rcases hr : s.link.responses with _ | ⟨r1, rest⟩ <;> simp

@[simp] theorem postResponse_answers (r : Response) (s : State) :
    (postResponse r s).link.answers = s.link.answers ++ [r] := (postResponse_spec r s).2.2.1
@[simp] theorem postResponse_inbound (r : Response) (s : State) :
    (postResponse r s).link.inbound = s.link.inbound := (postResponse_spec r s).2.1
@[simp] theorem postResponse_notices (r : Response) (s : State) :
    (postResponse r s).link.notices = s.link.notices := (postResponse_spec r s).2.2.2.2
@[simp] theorem postResponse_reports (r : Response) (s : State) :
    (postResponse r s).link.reports = s.link.reports := by
  simpa [numberFrom] using (postResponse_spec r s).2.2.2.1.1
@[simp] theorem postResponse_nextNotice (r : Response) (s : State) :
    (postResponse r s).link.nextNotice = s.link.nextNotice := by
  simpa using (postResponse_spec r s).2.2.2.1.2.1
@[simp] theorem postResponse_lost (r : Response) (s : State) :
    (postResponse r s).link.lost = s.link.lost := (postResponse_spec r s).2.2.2.1.2.2
@[simp] theorem postResponse_rate (r : Response) (s : State) :
    (postResponse r s).link.rate = s.link.rate := (postResponse_spec r s).1.1
@[simp] theorem postResponse_receiver (r : Response) (s : State) :
    (postResponse r s).link.receiver = s.link.receiver := (postResponse_spec r s).1.2.1
@[simp] theorem postResponse_framer (r : Response) (s : State) :
    (postResponse r s).link.framer = s.link.framer := (postResponse_spec r s).1.2.2.1
@[simp] theorem postResponse_gapRunning (r : Response) (s : State) :
    (postResponse r s).link.gapRunning = s.link.gapRunning := (postResponse_spec r s).1.2.2.2

@[simp] theorem postNotice_rate (n : Notice) (s : State) : (postNotice n s).link.rate = s.link.rate := by
  simp only [postNotice, Link.transmit_rate, Link.post, Link.enqueue]; split <;> rfl
@[simp] theorem postNotice_receiver (n : Notice) (s : State) :
    (postNotice n s).link.receiver = s.link.receiver := by
  simp only [postNotice, Link.transmit_receiver, Link.post, Link.enqueue]; split <;> rfl
@[simp] theorem postNotice_framer (n : Notice) (s : State) : (postNotice n s).link.framer = s.link.framer := by
  simp only [postNotice, Link.transmit_framer, Link.post, Link.enqueue]; split <;> rfl
@[simp] theorem postNotice_gapRunning (n : Notice) (s : State) :
    (postNotice n s).link.gapRunning = s.link.gapRunning := by
  simp only [postNotice, Link.transmit_gapRunning, Link.post, Link.enqueue]; split <;> rfl
@[simp] theorem postNotice_inbound (n : Notice) (s : State) :
    (postNotice n s).link.inbound = s.link.inbound := by
  simp only [postNotice, Link.transmit_inbound, Link.post, Link.enqueue]; split <;> rfl
@[simp] theorem Link.post_answers (n : Notice) (l : Link) : (l.post n).answers = l.answers := by
  unfold Link.post Link.enqueue; split <;> rfl
@[simp] theorem postNotice_answers (n : Notice) (s : State) :
    (postNotice n s).link.answers = s.link.answers := by
  unfold postNotice; exact (Link.transmit_answers _ _).trans (Link.post_answers n s.link)

/-- With room to spare a posted notice enters the notice stream at its end with the next number. -/
theorem postNotice_reported (n : Notice) (s : State) (h : s.RoomFor 1) :
    Reported s (postNotice n s) [n] ∧ (postNotice n s).link.notices.length ≤ s.link.notices.length + 1 := by
  have hlt : s.link.notices.length < Config.noticePlaces := by omega
  have ht := Link.transmit_reports (s.link.enqueue n) s.cmd.draining
    (by simp only [Link.enqueue, List.length_append, List.length_cons, List.length_nil]; omega)
  have hp : (postNotice n s).link = (s.link.enqueue n).transmit s.cmd.draining := by
    simp [postNotice, Link.post, hlt]
  have hr : (s.link.enqueue n).reports = s.link.reports ++ [⟨s.link.nextNotice, n⟩] := by
    simp only [Link.reports, Link.enqueue]; split <;> simp
  refine ⟨⟨?_, ?_, ?_⟩, ?_⟩
  · rw [hp, ht.1, hr]; rfl
  · rw [hp, ht.2.1]; rfl
  · rw [hp, ht.2.2.1]; rfl
  · rw [hp]; simpa [Link.enqueue] using ht.2.2.2

/-- Two stretches of reports make one. -/
theorem Reported.trans {s t u : State} {xs ys : List Notice} (h₁ : Reported s t xs) (h₂ : Reported t u ys) :
    Reported s u (xs ++ ys) := by
  obtain ⟨a₁, b₁, c₁⟩ := h₁
  obtain ⟨a₂, b₂, c₂⟩ := h₂
  refine ⟨?_, ?_, by rw [c₂, c₁]⟩
  · rw [a₂, a₁, b₁, List.append_assoc, numberFrom_append]
  · rw [b₂, b₁, advance_add, List.length_append]

/-- The notices `ns` were reported, and the notice queue has grown by no more than that. -/
structure Posts (s t : State) (ns : List Notice) : Prop where
  reported : Reported s t ns
  grows : t.link.notices.length ≤ s.link.notices.length + ns.length

theorem Posts.trans {s t u : State} {xs ys : List Notice} (h : Posts s t xs) (k : Posts t u ys) :
    Posts s u (xs ++ ys) :=
  ⟨h.reported.trans k.reported, by have := h.grows; have := k.grows; rw [List.length_append]; omega⟩

theorem Posts.of_link_eq {s t : State} (h : t.link = s.link) : Posts s t [] :=
  ⟨by simp [Reported, h, numberFrom], by simp [h]⟩

theorem Posts.refl (s : State) : Posts s s [] := .of_link_eq rfl

theorem postResponse_posts (r : Response) (s : State) : Posts s (postResponse r s) [] :=
  ⟨(postResponse_spec r s).2.2.2.1, by simp⟩

theorem postNotice_posts (n : Notice) (s : State) (h : s.RoomFor 1) : Posts s (postNotice n s) [n] :=
  ⟨(postNotice_reported n s h).1, (postNotice_reported n s h).2⟩

/-- Room left after some notices. -/
theorem Posts.room {s t : State} {xs : List Notice} (h : Posts s t xs) {n : Nat} (hr : s.RoomFor (xs.length + n)) :
    t.RoomFor n := by
  have := h.grows
  simp only [State.RoomFor] at hr ⊢
  omega

/-- States with one link report nothing. -/
theorem Reported.of_link_eq {s t : State} (h : t.link = s.link) : Reported s t [] := by
  simp [Reported, h, numberFrom]

end Sys2Proof.Machine
end

