-- ==== Sys2Proof/Laws/Engine.lean ====
section
/-! SUPPORT. What a port engine's operations can touch: its own port, the notices and the live tags, and nothing else
of the hub. One lemma per shared operation. -/

namespace Sys2Proof.Machine

/-- From `s` to `t` only port `p`, the outbound streams' notices and the live tag set may have changed. -/
structure PortWork (p : PortId) (s t : State) : Prop where
  power : t.power = s.power
  pending : t.pending = s.pending
  trim : t.trim = s.trim
  draining : t.cmd.draining = s.cmd.draining
  receiver : SameReceiver s t
  inbound : t.link.inbound = s.link.inbound
  answers : t.link.answers = s.link.answers
  others : ∀ p', p' ≠ p → t.port p' = s.port p'
  own : t.port p = s.port p ∨ ∃ q : Port, t.port p = q.refresh

theorem PortWork.refl (p : PortId) (s : State) : PortWork p s s :=
  ⟨rfl, rfl, rfl, rfl, ⟨rfl, rfl, rfl, rfl⟩, rfl, rfl, fun _ _ => rfl, .inl rfl⟩

theorem PortWork.trans {p : PortId} {s t u : State} (h : PortWork p s t) (k : PortWork p t u) : PortWork p s u where
  power := k.power.trans h.power
  pending := k.pending.trans h.pending
  trim := k.trim.trans h.trim
  draining := k.draining.trans h.draining
  receiver := ⟨k.receiver.1.trans h.receiver.1, k.receiver.2.1.trans h.receiver.2.1,
    k.receiver.2.2.1.trans h.receiver.2.2.1, k.receiver.2.2.2.trans h.receiver.2.2.2⟩
  inbound := k.inbound.trans h.inbound
  answers := k.answers.trans h.answers
  others := fun p' hp => (k.others p' hp).trans (h.others p' hp)
  own := by
    rcases k.own with e | ⟨q, e⟩
    · rcases h.own with e' | ⟨q', e'⟩
      · exact .inl (e.trans e')
      · exact .inr ⟨q', e.trans e'⟩
    · exact .inr ⟨q, e⟩

theorem modPort_work (p : PortId) (f : Port → Port) (s : State) : PortWork p s (s.modPort p f) :=
  ⟨rfl, rfl, rfl, rfl, ⟨rfl, rfl, rfl, rfl⟩, rfl, rfl, fun _ h => s.modPort_port_other f h,
    .inr ⟨_, s.modPort_port_same p f⟩⟩

theorem postNotice_work (p : PortId) (n : Notice) (s : State) : PortWork p s (postNotice n s) :=
  ⟨rfl, rfl, rfl, rfl, ⟨by simp, by simp, by simp, by simp⟩, by simp, by simp, fun _ _ => rfl, .inl rfl⟩

theorem dropTag_work (p : PortId) (tag : Word16) (s : State) : PortWork p s (dropTag tag s) :=
  ⟨rfl, rfl, rfl, rfl, ⟨rfl, rfl, rfl, rfl⟩, rfl, rfl, fun _ _ => rfl, .inl rfl⟩

theorem moveTo_work (p : PortId) (st : PortState) (c : TransCause) (s : State) : PortWork p s (moveTo p st c s) :=
  (modPort_work p _ s).trans (postNotice_work p _ _)

theorem updateStation_work (p : PortId) (a : Addr) (f : Station → Station) (c : StationCause) (s : State) :
    PortWork p s (updateStation p a f c s) := by
  unfold updateStation
  split
  · exact PortWork.refl p s
  · dsimp only
    split
    · exact modPort_work p _ s
    · exact (modPort_work p _ s).trans (postNotice_work p _ _)

theorem tableCompletion_work (p : PortId) (t : Txn) (o : TxnOutcome) (s : State) :
    PortWork p s (tableCompletion p t o s) := by
  unfold tableCompletion
  split
  · exact PortWork.refl p s
  · exact updateStation_work p _ _ _ s

theorem finish_work (p : PortId) (t : Txn) (o : TxnOutcome) (used : Nat) (r : Option (List Byte)) (s : State) :
    PortWork p s (finish p t o used r s) :=
  ((postNotice_work p _ s).trans (dropTag_work p _ _)).trans (tableCompletion_work p t o _)

theorem completeRun_work (p : PortId) (r : TxnRun) (o : TxnOutcome) (s : State) :
    PortWork p s (completeRun p r o s) := (modPort_work p _ s).trans (finish_work p _ o _ _ _)

theorem completeAndDecide_work (p : PortId) (r : TxnRun) (o : TxnOutcome) (s : State) :
    PortWork p s (completeAndDecide p r o s) := (completeRun_work p r o s).trans (modPort_work p _ _)

theorem failAttempt_work (p : PortId) (r : TxnRun) (c : FailCause) (s : State) :
    PortWork p s (failAttempt p r c s) := by
  unfold failAttempt
  dsimp only
  split
  · exact (modPort_work p _ s).trans (modPort_work p _ _)
  · exact (modPort_work p _ s).trans (completeAndDecide_work p _ _ _)

theorem endSweep_work (p : PortId) (w : Sweep) (how : SweepEnd) (s : State) : PortWork p s (endSweep p w how s) :=
  (modPort_work p _ s).trans (postNotice_work p _ _)

theorem chooseThreshold_work (p : PortId) (w : Sweep) (s : State) : PortWork p s (chooseThreshold p w s) := by
  unfold chooseThreshold
  dsimp only
  split
  · exact (modPort_work p _ s).trans (endSweep_work p w _ _)
  · exact endSweep_work p w _ s

theorem abandonSweep_work (p : PortId) (c : SweepCause) (s : State) : PortWork p s (abandonSweep p c s) := by
  unfold abandonSweep
  split
  · exact PortWork.refl p s
  · exact endSweep_work p _ _ s

theorem settleSweep_work (p : PortId) (s : State) : PortWork p s (settleSweep p s) := by
  unfold settleSweep
  split
  · split
    · exact chooseThreshold_work p _ _
    · exact PortWork.refl p _
  · exact PortWork.refl p _

theorem endProbe_work (p : PortId) (r : ProbeRun) (pass : Bool) (s : State) : PortWork p s (endProbe p r pass s) :=
  ((modPort_work p _ s).trans (settleSweep_work p _)).trans (modPort_work p _ _)

theorem failExchange_work (p : PortId) (c : FailCause) (s : State) : PortWork p s (failExchange p c s) := by
  unfold failExchange
  split
  · exact PortWork.refl p s
  · split
    · exact failAttempt_work p _ c s
    · exact endProbe_work p _ _ s

theorem finishAll_work (p : PortId) (o : TxnOutcome) (ts : List Txn) (s : State) :
    PortWork p s (finishAll p o ts s) := by
  unfold finishAll
  induction ts generalizing s with
  | nil => exact PortWork.refl p s
  | cons t ts ih => exact (finish_work p t o 0 none s).trans (ih _)

theorem endInFlight_work (p : PortId) (o : TxnOutcome) (s : State) : PortWork p s (endInFlight p o s) := by
  unfold endInFlight
  split
  · exact PortWork.refl p s
  · split
    · exact completeRun_work p _ o s
    · exact modPort_work p _ s

theorem quarantineInFlight_work (p : PortId) (a : Addr) (s : State) : PortWork p s (quarantineInFlight p a s) := by
  unfold quarantineInFlight
  split
  · exact endInFlight_work p _ s
  · exact PortWork.refl p s

theorem quarantineQueue_work (p : PortId) (a : Addr) (s : State) : PortWork p s (quarantineQueue p a s) :=
  (modPort_work p _ s).trans (finishAll_work p _ _ _)

theorem quarantineSweep_work (p : PortId) (a : Addr) (s : State) : PortWork p s (quarantineSweep p a s) := by
  unfold quarantineSweep
  split
  · split
    · exact abandonSweep_work p _ s
    · exact PortWork.refl p s
  · exact PortWork.refl p s

theorem quarantineEntry_work (p : PortId) (a : Addr) (s : State) : PortWork p s (quarantineEntry p a s) := by
  have h := ((quarantineInFlight_work p a s).trans (quarantineQueue_work p a _)).trans (quarantineSweep_work p a _)
  unfold quarantineEntry
  dsimp only
  split
  · exact h.trans (modPort_work p _ _)
  · exact h

theorem strike_work (p : PortId) (a : Addr) (s : State) : PortWork p s (strike p a s) := by
  unfold strike
  split
  · exact modPort_work p _ s
  · split
    · exact modPort_work p _ s
    · split
      · exact ((modPort_work p _ s).trans (postNotice_work p _ _)).trans (quarantineEntry_work p a _)
      · exact PortWork.refl p s

theorem flush_work (p : PortId) (c : FlushCause) (s : State) : PortWork p s (flush p c s) := by
  unfold flush
  exact ((endInFlight_work p _ s).trans ((modPort_work p _ _).trans (finishAll_work p _ _ _))).trans
    (abandonSweep_work p _ _)

theorem enterFault_work (p : PortId) (c : FaultCause) (tc : TransCause) (s : State) :
    PortWork p s (enterFault p c tc s) :=
  ((moveTo_work p _ tc s).trans (flush_work p _ _)).trans (modPort_work p _ _)

theorem startBit_work (p : PortId) (l : Bool) (s : State) : PortWork p s (startBit p l s) := by
  unfold startBit
  dsimp only
  split
  · exact (modPort_work p _ s).trans (failExchange_work p _ _)
  · exact modPort_work p _ s

theorem outsideHead_work (p : PortId) (k : FrameKind) (a : Addr) (s : State) :
    PortWork p s (outsideHead p k a s) := by
  unfold outsideHead
  split
  · exact modPort_work p _ s
  · split
    · exact modPort_work p _ s
    · split
      · exact modPort_work p _ s
      · exact strike_work p a s

theorem headTaken_work (p : PortId) (k : FrameKind) (a : Addr) (s : State) :
    PortWork p s (headTaken p k a s) := by
  unfold headTaken
  split
  · exact outsideHead_work p k a s
  · split
    · unfold windowHead
      split
      · exact (modPort_work p _ s).trans (failExchange_work p _ _)
      · split
        · exact modPort_work p _ s
        · exact (strike_work p a s).trans (failExchange_work p _ _)
    · exact outsideHead_work p k a s

theorem countTaken_work (p : PortId) (n : Byte) (s : State) : PortWork p s (countTaken p n s) := by
  unfold countTaken
  split
  · exact PortWork.refl p s
  · split
    · split
      · exact failAttempt_work p _ _ s
      · exact PortWork.refl p s
    · exact PortWork.refl p s

theorem reportNoise_work (p : PortId) (r : FrameRec) (s : State) : PortWork p s (reportNoise p r s) := by
  unfold reportNoise
  split
  · exact modPort_work p _ s
  · exact PortWork.refl p s

theorem judgeFrame_work (p : PortId) (e : Ending) (g : Bool) (r : FrameRec) (s : State) :
    PortWork p s (judgeFrame p e g r s) := by
  unfold judgeFrame
  split
  · exact PortWork.refl p _
  · split
    · split
      · split
        · exact completeAndDecide_work p _ _ _
        · exact failAttempt_work p _ _ _
      · exact endProbe_work p _ _ _
    · exact PortWork.refl p _

theorem frameEnd_work (p : PortId) (e : Ending) (g : Bool) (r : FrameRec) (s : State) :
    PortWork p s (frameEnd p e g r s) := (reportNoise_work p r s).trans (judgeFrame_work p e g r _)

theorem openFrame_work (p : PortId) (c : RxChar) (s : State) : PortWork p s (openFrame p c s) :=
  (modPort_work p _ s).trans (headTaken_work p _ _ _)

theorem endFrame_work (p : PortId) (e : Ending) (r : FrameRec) (s : State) : PortWork p s (endFrame p e r s) :=
  (modPort_work p _ s).trans (frameEnd_work p _ _ _ _)

theorem assemble_work (p : PortId) (c : RxChar) (s : State) : PortWork p s (assemble p c s) := by
  unfold assemble
  split
  · split
    · exact openFrame_work p c s
    · exact PortWork.refl p s
  · split
    · exact (endFrame_work p _ _ s).trans (openFrame_work p c _)
    · unfold addCharacter
      dsimp only
      split
      · split
        · exact (modPort_work p _ s).trans (countTaken_work p _ _)
        · exact endFrame_work p _ _ s
      · exact modPort_work p _ s
      · exact modPort_work p _ s
      · exact endFrame_work p _ _ s

theorem replyTimeout_work (p : PortId) (s : State) : PortWork p s (replyTimeout p s) := by
  unfold replyTimeout
  split
  · exact PortWork.refl p s
  · exact (modPort_work p _ s).trans (failExchange_work p _ _)

/-- The commands that bring a start bit on a port's line: its two constructors (log 9). -/
theorem bringsStart_iff (p : PortId) (c : Instr) :
    bringsStart p c = true ↔ (∃ l, c = .startBitAccepted p l) ∨ ∃ ch, c = .characterReceived p ch := by
  cases c <;> simp [bringsStart]

/-- A command that brings a start bit tells (log 24). -/
theorem bringsStart_tells {p : PortId} {c : Instr} (h : bringsStart p c = true) : tellsNext p c = true := by
  rcases (bringsStart_iff p c).1 h with ⟨l, rfl⟩ | ⟨ch, rfl⟩ <;> simp [tellsNext]

/-- What the search of the waiting commands finds, as the statements say it (log 24). -/
theorem startFollows_iff (p : PortId) (s : State) : startFollows p s.pending = true ↔ s.StartFirst p := by
  unfold startFollows
  rw [Option.any_eq_true]
  constructor
  · rintro ⟨c, hfind, hc⟩
    obtain ⟨_, before, after, hsplit, hbefore⟩ := List.find?_eq_some_iff_append.1 hfind
    exact ⟨before, c, after, hsplit, (bringsStart_iff p c).1 hc, by simpa using hbefore⟩
  · rintro ⟨before, c, after, hsplit, hc, hbefore⟩
    have hstart := (bringsStart_iff p c).2 hc
    exact ⟨c, List.find?_eq_some_iff_append.2
      ⟨bringsStart_tells hstart, before, after, hsplit, by simpa using hbefore⟩, hstart⟩

theorem sampleActive_eq_sampled (q : Port) : q.sampleActive = q.sampled := by
  unfold Port.sampleActive Port.sampled
  split <;> simp [*]

/-- The state in which a reply timeout is judged when a start bit is taken first (R11, R88). -/
theorem yieldToStart_of_start {p : PortId} {s : State} (h : s.StartFirst p) :
    yieldToStart p s = s.modPort p Port.sampled := by
  unfold yieldToStart
  rw [if_pos ((startFollows_iff p s).2 h), funext sampleActive_eq_sampled]

/-- The state in which a reply timeout is judged when no start bit is taken first (R64). -/
theorem yieldToStart_of_no_start {p : PortId} {s : State} (h : ¬ s.StartFirst p) : yieldToStart p s = s := by
  unfold yieldToStart
  rw [if_neg fun k => h ((startFollows_iff p s).1 k)]

theorem yieldToStart_work (p : PortId) (s : State) : PortWork p s (yieldToStart p s) := by
  unfold yieldToStart
  split
  · exact modPort_work p _ s
  · exact PortWork.refl p s

theorem takeCharacter_work (p : PortId) (c : RxChar) (s : State) : PortWork p s (takeCharacter p c s) := by
  unfold takeCharacter
  dsimp only
  have h := (modPort_work p (fun q => q.endCharacter c) s).trans (assemble_work p c _)
  split
  · exact h.trans (replyTimeout_work p _)
  · exact h

theorem frameSent_work (p : PortId) (w : Work) (s : State) : PortWork p s (frameSent p w s) := by
  unfold frameSent
  dsimp only
  split
  · split
    · exact (modPort_work p _ s).trans (modPort_work p _ _)
    · exact (modPort_work p _ s).trans (completeAndDecide_work p _ _ _)
  · exact (modPort_work p _ s).trans (modPort_work p _ _)

theorem collide_work (p : PortId) (s : State) : PortWork p s (collide p s) := by
  unfold collide
  dsimp only
  split
  · exact (modPort_work p _ s).trans (enterFault_work p _ _ _)
  · exact (modPort_work p _ s).trans (failExchange_work p _ _)

theorem windowMove_work (p : PortId) (o : WindowOutcome) (s : State) : PortWork p s (windowMove p o s) := by
  unfold windowMove
  split
  · exact PortWork.refl p s
  · exact (modPort_work p _ s).trans (enterFault_work p _ _ _)
  · exact moveTo_work p _ _ s

theorem tellSweep_work (p : PortId) (s : State) : PortWork p s (tellSweep p s) := by
  unfold tellSweep
  split
  · exact PortWork.refl p s
  · split
    · exact modPort_work p _ s
    · exact abandonSweep_work p _ s

theorem takeWindowEnd_work (p : PortId) (n : Byte) (o : WindowOutcome) (k : CalKind) (ch : Bool) (s : State) :
    PortWork p s (takeWindowEnd p n o k ch s) := by
  unfold takeWindowEnd finalOutcome
  dsimp only
  split
  · split
    · exact modPort_work p _ s
    · split
      · exact (((windowMove_work p o s).trans (modPort_work p _ _)).trans (tellSweep_work p _)).trans
          (modPort_work p _ _)
      · exact ((windowMove_work p o s).trans (modPort_work p _ _)).trans (modPort_work p _ _)
  · exact PortWork.refl p s

theorem takeUpgrade_work (p : PortId) (s : State) : PortWork p s (takeUpgrade p s) := by
  unfold takeUpgrade
  dsimp only
  split
  · exact (modPort_work p _ s).trans (moveTo_work p _ _ _)
  · exact modPort_work p _ s

end Sys2Proof.Machine
end

