-- ==== Sys2Proof/Laws/Trim.lean ====
section
/-! SUPPORT. What the trim unit's operations can touch: the trim unit itself, the notices, and of each port only the
mailboxes, the trim codes, the driver and the spoil watch. One lemma per shared operation. -/

namespace Sys2Proof.Machine

/-- The parts of a port that the trim unit never writes. -/
structure SameEngine (q r : Port) : Prop where
  settings : r.settings = q.settings
  state : r.state = q.state
  counters : r.counters = q.counters
  collisionRun : r.collisionRun = q.collisionRun
  queue : r.queue = q.queue
  inFlight : r.inFlight = q.inFlight
  sweep : r.sweep = q.sweep
  claim : r.claim = q.claim
  claimNumber : r.claimNumber = q.claimNumber
  claimKind : r.claimKind = q.claimKind
  timer : r.timer = q.timer
  interval : r.interval = q.interval
  profile : r.profile = q.profile
  lateReply : r.lateReply = q.lateReply
  stations : r.stations = q.stations
  newIntervals : r.newIntervals = q.newIntervals
  spoils : r.spoils = q.spoils
  receiver : r.line.receiver = q.line.receiver
  assembler : r.line.assembler = q.line.assembler
  restCount : r.line.restCount = q.line.restCount
  lastSample : r.line.lastSample = q.line.lastSample
  gapRunning : r.line.gapRunning = q.line.gapRunning
  turnaround : r.line.turnaround = q.line.turnaround
  reply : r.line.reply = q.line.reply
  sending : r.line.sending = q.line.sending
  threshold : r.line.threshold = q.line.threshold
  driving : r.line.driver = .driving → q.line.driver = .driving

theorem SameEngine.refl (q : Port) : SameEngine q q := by constructor <;> first | rfl | exact id

theorem SameEngine.trans {q r u : Port} (h : SameEngine q r) (k : SameEngine r u) : SameEngine q u := by
  cases h; cases k; constructor <;> first | exact Eq.trans (by assumption) (by assumption) | tauto

/-- From `s` to `t` only the trim unit worked. -/
structure TrimWork (s t : State) : Prop where
  power : t.power = s.power
  pending : t.pending = s.pending
  cmd : t.cmd = s.cmd
  receiver : SameReceiver s t
  inbound : t.link.inbound = s.link.inbound
  answers : t.link.answers = s.link.answers
  engines : ∀ p, SameEngine (s.port p) (t.port p)
  current : ∀ p, t.port p = s.port p ∨ ∃ q : Port, t.port p = q.refresh

theorem TrimWork.refl (s : State) : TrimWork s s :=
  ⟨rfl, rfl, rfl, ⟨rfl, rfl, rfl, rfl⟩, rfl, rfl, fun _ => .refl _, fun _ => .inl rfl⟩

theorem TrimWork.trans {s t u : State} (h : TrimWork s t) (k : TrimWork t u) : TrimWork s u where
  power := k.power.trans h.power
  pending := k.pending.trans h.pending
  cmd := k.cmd.trans h.cmd
  receiver := ⟨k.receiver.1.trans h.receiver.1, k.receiver.2.1.trans h.receiver.2.1,
    k.receiver.2.2.1.trans h.receiver.2.2.1, k.receiver.2.2.2.trans h.receiver.2.2.2⟩
  inbound := k.inbound.trans h.inbound
  answers := k.answers.trans h.answers
  engines := fun p => (h.engines p).trans (k.engines p)
  current := fun p => by
    rcases k.current p with e | ⟨q, e⟩
    · rcases h.current p with e' | ⟨q', e'⟩
      · exact .inl (e.trans e')
      · exact .inr ⟨q', e.trans e'⟩
    · exact .inr ⟨q, e⟩

theorem setTrim_trimWork (s : State) (u : TrimUnit) : TrimWork s (s.setTrim u) :=
  ⟨rfl, rfl, rfl, ⟨rfl, rfl, rfl, rfl⟩, rfl, rfl, fun _ => .refl _, fun _ => .inl rfl⟩

theorem postNotice_trimWork (n : Notice) (s : State) : TrimWork s (postNotice n s) :=
  ⟨rfl, rfl, rfl, ⟨by simp, by simp, by simp, by simp⟩, by simp, by simp, fun _ => .refl _, fun _ => .inl rfl⟩

theorem modPort_trimWork (p : PortId) (f : Port → Port) (s : State)
    (hf : SameEngine (s.port p) (f (s.port p)).refresh) : TrimWork s (s.modPort p f) := by
  refine ⟨rfl, rfl, rfl, ⟨rfl, rfl, rfl, rfl⟩, rfl, rfl, fun i => ?_, fun i => ?_⟩
  · rw [s.modPort_port]
    split
    · next h => rw [h]; exact hf
    · exact .refl _
  · rw [s.modPort_port]
    split
    · exact .inr ⟨_, rfl⟩
    · exact .inl rfl

theorem sendPort_trimWork (p : PortId) (m : TrimMsg) (s : State) : TrimWork s (sendPort p m s) :=
  modPort_trimWork p _ s (by constructor <;> first | rfl | exact id)

theorem dropPortMsg_trimWork (p : PortId) (s : State) : TrimWork s (dropPortMsg p s) :=
  modPort_trimWork p _ s (by constructor <;> first | rfl | exact id)

theorem setCodes_trimWork (p : PortId) (t : Trim) (s : State) : TrimWork s (setCodes p t s) :=
  modPort_trimWork p _ s (by constructor <;> first | rfl | exact id)

theorem grantHead_trimWork (s : State) : TrimWork s (grantHead s) := by
  unfold grantHead
  split
  · exact (setTrim_trimWork s _).trans (sendPort_trimWork _ _ _)
  · exact TrimWork.refl s

theorem enterTail_trimWork (r : Request) (s : State) : TrimWork s (enterTail r s) :=
  (setTrim_trimWork s _).trans (grantHead_trimWork _)

theorem takeRequest_trimWork (r : Request) (s : State) : TrimWork s (takeRequest r s).2 := by
  unfold takeRequest
  split
  · exact TrimWork.refl s
  · split
    · split
      · exact (setTrim_trimWork s _).trans (sendPort_trimWork _ _ _)
      · exact TrimWork.refl s
    · exact enterTail_trimWork r s

theorem endWindow_trimWork (r : Request) (start : Trim) (o : WindowOutcome) (ch : Bool) (s : State) :
    TrimWork s (endWindow r start o ch s) :=
  ((setTrim_trimWork s _).trans
    (modPort_trimWork r.port _ _ (by constructor <;> first | rfl | exact id))).trans (sendPort_trimWork _ _ _)

theorem reportCal_trimWork (r : Request) (o : CalOutcome) (s : State) : TrimWork s (reportCal r o s) := by
  unfold reportCal
  split
  · exact postNotice_trimWork _ s
  · exact TrimWork.refl s

theorem closeWindow_trimWork (r : Request) (o : WindowOutcome) (s : State) : TrimWork s (closeWindow r o s) := by
  unfold closeWindow
  dsimp only
  refine TrimWork.trans ?_ ((setTrim_trimWork _ _).trans ((sendPort_trimWork _ _ _).trans (grantHead_trimWork _)))
  split
  · exact reportCal_trimWork r _ s
  · exact TrimWork.refl s

theorem abandonWindow_same (q : Port) : SameEngine q q.abandonWindow.refresh := by
  constructor <;> first | rfl | skip
  simp only [Port.abandonWindow, Port.refresh]
  split
  · intro h; cases h
  · exact id

theorem takeWithdrawal_trimWork (p : PortId) (n : Byte) (s : State) : TrimWork s (takeWithdrawal p n s) := by
  unfold takeWithdrawal
  split
  · next h _ =>
    dsimp only
    have hcodes : TrimWork s (match h.phase.startCodes with
        | some start => setCodes p start s
        | none => s) := by
      split
      · exact setCodes_trimWork p _ s
      · exact TrimWork.refl s
    exact ((hcodes.trans (modPort_trimWork p _ _ (abandonWindow_same _))).trans (setTrim_trimWork _ _)).trans
      ((reportCal_trimWork _ _ _).trans (grantHead_trimWork _))
  · split
    · exact ((setTrim_trimWork s _).trans (reportCal_trimWork _ _ _)).trans (grantHead_trimWork _)
    · exact TrimWork.refl s

theorem takeWindowOpen_trimWork (p : PortId) (n : Byte) (s : State) : TrimWork s (takeWindowOpen p n s) := by
  unfold takeWindowOpen
  split
  · exact TrimWork.refl s
  · refine ((setTrim_trimWork s _).trans (setCodes_trimWork p _ _)).trans (modPort_trimWork p _ _ ?_)
    split
    · constructor <;> first | rfl | (intro h; cases h)
    · constructor <;> first | rfl | exact id

theorem takeAcknowledgement_trimWork (p : PortId) (n : Byte) (s : State) :
    TrimWork s (takeAcknowledgement p n s) := by
  unfold takeAcknowledgement
  split
  · exact TrimWork.refl s
  · split
    · split
      · exact closeWindow_trimWork _ _ s
      · exact TrimWork.refl s
      · exact TrimWork.refl s
    · exact TrimWork.refl s

theorem takePortMsg_trimWork (p : PortId) (m : PortMsg) (s : State) : TrimWork s (takePortMsg p m s) := by
  cases m with
  | request r => exact takeRequest_trimWork r s
  | windowOpen n => exact takeWindowOpen_trimWork p n s
  | acknowledge n => exact takeAcknowledgement_trimWork p n s
  | withdraw n => exact takeWithdrawal_trimWork p n s

theorem drainPort_trimWork (p : PortId) (s : State) : TrimWork s (drainPort p s) := by
  unfold drainPort
  generalize (s.port p).toTrim = ms
  induction ms generalizing s with
  | nil => exact TrimWork.refl s
  | cons m ms ih => exact ((dropPortMsg_trimWork p s).trans (takePortMsg_trimWork p m _)).trans (ih _)

theorem takeSpoil_trimWork (p : PortId) (n : Byte) (s : State) : TrimWork s (takeSpoil p n s) := by
  unfold takeSpoil
  split
  · exact TrimWork.refl s
  · split
    · split
      · exact (setCodes_trimWork p _ s).trans (endWindow_trimWork _ _ _ _ _)
      · exact TrimWork.refl s
      · exact TrimWork.refl s
    · exact TrimWork.refl s

theorem takeComparison_trimWork (a : Comparison) (s : State) : TrimWork s (takeComparison a s) := by
  unfold takeComparison
  split
  · exact TrimWork.refl s
  · split
    · split
      · exact TrimWork.refl s
      · exact (setTrim_trimWork s _).trans (setCodes_trimWork _ _ _)
      · exact (setCodes_trimWork _ _ s).trans (endWindow_trimWork _ _ _ _ _)
    · exact TrimWork.refl s
    · exact TrimWork.refl s

/-- The test that QUICK_CAL_EXPIRY makes and the condition that the statements name agree. -/
theorem State.closing_iff (s : State) (p : PortId) : s.closing p = true ↔ s.Closing p := by
  rcases hh : s.trim.holder with _ | ⟨r, phase⟩
  · simp [State.closing, State.Closing, hh]
  · cases phase <;> simp [State.closing, State.Closing, hh, HolderPhase.endsFinal, and_assoc]

end Sys2Proof.Machine
end

