-- ==== Sys2Proof/Laws/Commands.lean ====
section
/-! SUPPORT. How a host command is taken: what `takeCommand` answers when the frame can be taken, when a common check
fails, and when nothing can be taken. -/

namespace Sys2Proof.Machine

theorem whenRunning_running {s : State} (h : s.power = .running) (f : State → State) : whenRunning s f = f s := by
  simp [whenRunning, h]

theorem whenRunning_not {s : State} (h : s.power ≠ .running) (f : State → State) : whenRunning s f = s := by
  unfold whenRunning
  split
  · next e => exact absurd e h
  · rfl
  · rfl

/-- Passing time changes the quick-cal timers of a running hub and nothing else. -/
theorem State.pass_spec {s : State} (h : s.power = .running) (n : Nat) :
    (s.pass n).power = s.power ∧ (s.pass n).link = s.link ∧ (s.pass n).cmd = s.cmd ∧ (s.pass n).trim = s.trim ∧
    (s.pass n).pending = s.pending ∧
    ∀ p, (s.pass n).port p = ((s.port p).pass p n (s.closing p)).refresh := by
  rw [State.pass, whenRunning_running h]
  exact ⟨rfl, rfl, rfl, rfl, rfl, fun p => s.mapPorts_port _ p⟩

@[simp] theorem QuickTimer.pass_stopped (n : Nat) : QuickTimer.stopped.pass n = .stopped := rfl
@[simp] theorem QuickTimer.pass_expired (n : Nat) : QuickTimer.expired.pass n = .expired := rfl
@[simp] theorem QuickTimer.pass_running (n ms : Nat) : (QuickTimer.running ms).pass n = .running (ms - n) := rfl

/-- An expiry is what the statements name, whatever the timer still showed (R135). -/
theorem Port.expire_eq_timedOut (p : PortId) (q : Port) (timer : QuickTimer) :
    ({ q with timer := timer } : Port).expire p = q.timedOut p := rfl

/-- A running timer with time enough counts down, and so does one whose port awaits a closure. -/
theorem Port.pass_counts {q : Port} {ms n : Nat} {closing : Bool} (p : PortId) (hq : q.timer = .running ms)
    (h : n ≤ ms ∨ closing = true) : q.pass p n closing = { q with timer := .running (ms - n) } := by
  unfold Port.pass
  rcases h with h | rfl
  · simp [hq, QuickTimer.runsOutWithin, Nat.not_lt.mpr h]
  · simp [hq]

/-- A timer that reaches 0 before the time has passed expires. -/
theorem Port.pass_expires {q : Port} {ms n : Nat} (p : PortId) (hq : q.timer = .running ms) (h : ms < n) :
    q.pass p n false = q.timedOut p := by
  unfold Port.pass
  simp only [hq, QuickTimer.runsOutWithin, h, decide_true, Bool.not_false, Bool.and_self, if_true]
  exact Port.expire_eq_timedOut p q _

/-- Time does nothing to a timer that does not run. -/
theorem Port.pass_not_running {q : Port} (p : PortId) (n : Nat) (closing : Bool) (h : ∀ ms, q.timer ≠ .running ms) :
    q.pass p n closing = q := by
  unfold Port.pass
  rcases ht : q.timer with _ | ms | _
  · simp [QuickTimer.runsOutWithin]
    exact congrArg (fun timer => ({ q with timer := timer } : Port)) ht.symm
  · exact absurd ht (h ms)
  · simp [QuickTimer.runsOutWithin]
    exact congrArg (fun timer => ({ q with timer := timer } : Port)) ht.symm

/-- Passing time does to each port what the statements say. -/
theorem State.pass_timePasses {s : State} (h : s.power = .running) (n : Nat) (p : PortId) :
    TimePasses s (s.pass n) p n := by
  obtain ⟨_, _, _, _, _, hp⟩ := State.pass_spec h n
  refine ⟨fun ms hms hn => ?_, fun ms hms hn hc => ?_, fun hms => ?_⟩
  · rw [hp, Port.pass_counts p hms (hn.imp id (State.closing_iff s p).2)]
  · rw [hp, Bool.eq_false_iff.2 fun hc' => hc ((State.closing_iff s p).1 hc'), Port.pass_expires p hms hn]
  · rw [hp, Port.pass_not_running p n _ hms]

/-- `whenRunning` either does nothing or runs its function in a running hub. -/
theorem whenRunning_cases (s : State) (f : State → State) :
    (s.power ≠ .running ∧ whenRunning s f = s) ∨ (s.power = .running ∧ whenRunning s f = f s) := by
  by_cases h : s.power = .running
  · exact .inr ⟨h, whenRunning_running h f⟩
  · exact .inl ⟨h, whenRunning_not h f⟩

theorem frontFrame_of_takes {s : State} {f : HostFrame} (h : s.Takes f) : s.frontFrame = some f := by
  obtain ⟨_, hd, hr, hf⟩ := h
  have : ¬ (s.cmd.draining = true ∨ Config.responsePlaces ≤ s.link.responses.length) := by
    rintro (e | e)
    · simp [hd] at e
    · omega
  rw [State.frontFrame, if_neg this, hf]

theorem frontFrame_draining {s : State} (h : s.cmd.draining = true) : s.frontFrame = none := by
  simp [State.frontFrame, h]

/-- A frame that can be taken is taken by the command it belongs to. -/
theorem takeFrameIf_takes {s : State} {f : HostFrame} (h : s.Takes f) {mine : HostFrame → Bool} (hm : mine f = true)
    (run : HostFrame → State → State) : takeFrameIf mine run s = run f s.popFrame := by
  rw [takeFrameIf, whenRunning_running h.1]
  simp [frontFrame_of_takes h, hm]

/-- A frame of another command is left where it is. -/
theorem takeFrameIf_other {s : State} {f : HostFrame} (h : s.Takes f) {mine : HostFrame → Bool}
    (hm : mine f = false) (run : HostFrame → State → State) : takeFrameIf mine run s = s := by
  rw [takeFrameIf, whenRunning_running h.1]
  simp [frontFrame_of_takes h, hm]

/-- Everything a taking can be: nothing, or `run` on a frame that stands at the head of the buffer, with room for its
response. -/
theorem takeFrameIf_cases (mine : HostFrame → Bool) (run : HostFrame → State → State) (s : State) :
    takeFrameIf mine run s = s ∨
    ∃ f, s.Takes f ∧ mine f = true ∧ takeFrameIf mine run s = run f s.popFrame := by
  by_cases hp : s.power = .running
  · by_cases hd : s.cmd.draining = true ∨ Config.responsePlaces ≤ s.link.responses.length
    · left
      rw [takeFrameIf, whenRunning_running hp]
      simp [State.frontFrame, hd]
    · rcases hf : s.link.inbound.head? with _ | f
      · left
        rw [takeFrameIf, whenRunning_running hp]
        simp only [State.frontFrame, if_neg hd, hf]
      · have ht : s.Takes f := ⟨hp, by simpa using fun e => hd (.inl e), by omega, hf⟩
        by_cases hm : mine f = true
        · exact .inr ⟨f, ht, hm, takeFrameIf_takes ht hm run⟩
        · exact .inl (takeFrameIf_other ht (by simpa using hm) run)
  · exact .inl (by rw [takeFrameIf, whenRunning_not hp])

/-- A frame whose operands pass the common checks runs its command. -/
theorem takeCommand_ok {α : Type} {s : State} {f : HostFrame} {kind : Byte} (h : s.Takes f) (hk : f.kind = kind)
    {parse : List Byte → Parsed α} {a : α} (hp : parse f.body = .ok a) (run : HostFrame → α → State → State) :
    takeCommand kind parse run s = run f a s.popFrame := by
  rw [takeCommand, takeFrameIf_takes h (by simp [hk])]
  simp [hp]

/-- A frame that fails a common check is answered with its result and does nothing else. -/
theorem takeCommand_error {α : Type} {s : State} {f : HostFrame} {kind : Byte} (h : s.Takes f) (hk : f.kind = kind)
    {parse : List Byte → Parsed α} {r : Result} (hp : parse f.body = .error r)
    (run : HostFrame → α → State → State) : takeCommand kind parse run s = respond f r [] s.popFrame := by
  rw [takeCommand, takeFrameIf_takes h (by simp [hk])]
  simp [hp]

/-- A response to a frame just taken: the frame is answered, and nothing else of the hub moves. -/
theorem respond_spec (f : HostFrame) (r : Result) (d : List Byte) (s : State) :
    Answered s (respond f r d s.popFrame) f r d ∧ Reported s (respond f r d s.popFrame) [] ∧
    SameBlocks s (respond f r d s.popFrame) := by
  have h := postResponse_spec ⟨f.kind + 0x80, f.seq, r, d⟩ s.popFrame
  exact ⟨⟨rfl, rfl, h.1, h.2.1, h.2.2.1⟩, h.2.2.2.1, rfl, rfl, fun _ => rfl⟩

/-- A frame that can be taken and fails a common check is refused, and nothing else happens. -/
theorem takeCommand_refused {α : Type} {s : State} {f : HostFrame} {kind : Byte} (h : s.Takes f)
    (hk : f.kind = kind) {parse : List Byte → Parsed α} {r : Result} (hp : parse f.body = .error r)
    (run : HostFrame → α → State → State) : Refused s (takeCommand kind parse run s) f r := by
  rw [takeCommand_error h hk hp]
  exact respond_spec f r [] s

@[simp] theorem respond_power (f : HostFrame) (r : Result) (d : List Byte) (s : State) :
    (respond f r d s).power = s.power := rfl
@[simp] theorem respond_cmd (f : HostFrame) (r : Result) (d : List Byte) (s : State) :
    (respond f r d s).cmd = s.cmd := rfl
@[simp] theorem respond_trim (f : HostFrame) (r : Result) (d : List Byte) (s : State) :
    (respond f r d s).trim = s.trim := rfl
@[simp] theorem respond_pending (f : HostFrame) (r : Result) (d : List Byte) (s : State) :
    (respond f r d s).pending = s.pending := rfl
@[simp] theorem respond_port (f : HostFrame) (r : Result) (d : List Byte) (s : State) (p : PortId) :
    (respond f r d s).port p = s.port p := rfl
@[simp] theorem respond_notices (f : HostFrame) (r : Result) (d : List Byte) (s : State) :
    (respond f r d s).link.notices = s.link.notices := postResponse_notices _ s

/-- A port number as a byte is read back as the port. -/
@[simp] theorem parsePort_portByte (p : PortId) : parsePort (portByte p) = .ok p := by
  revert p; decide

end Sys2Proof.Machine
end

