-- ==== Sys2Proof/Laws/Flush.lean ====
section
/-! SUPPORT. The flush of a port's work, said once: what it does to the port, to the live tags and to the notices
(R23). -/

set_option linter.unnecessarySeqFocus false

namespace Sys2Proof.Machine

/-- The outcomes that leave a station's entry as it was (R41). -/
def TxnOutcome.leavesEntry : TxnOutcome → Bool
  | .cancelled => true
  | .portDisabled => true
  | .portReset => true
  | .portFaulted => true
  | .stationQuarantined => true
  | .done => false
  | .noReply => false
  | .badReply => false
  | .collided => false

theorem Station.complete_leaves (e : Station) (k : TxnKind) {o : TxnOutcome} (h : o.leavesEntry = true) :
    e.complete k o = e := by
  cases o <;> first | rfl | (simp [TxnOutcome.leavesEntry] at h)

theorem Port.modStation_id (q : Port) (a : Addr) : q.modStation a (fun e => e) = q := by
  simp [Port.modStation]

/-- A completion that leaves the entry leaves the port, but for its computed records. -/
theorem tableCompletion_leaves (p : PortId) (t : Txn) {o : TxnOutcome} (h : o.leavesEntry = true) (s : State) :
    tableCompletion p t o s = s ∨ tableCompletion p t o s = s.setPort p (s.port p) := by
  unfold tableCompletion
  split
  · exact .inl rfl
  · unfold updateStation
    split
    · exact .inl rfl
    · right
      simp only [Station.complete_leaves _ _ h, if_true]
      rw [State.modPort, Port.modStation_id]

/-- One flushed or cancelled transaction: its TXN_DONE, its tag, and the port unchanged but for its computed
records. -/
theorem finish_leaves (p : PortId) (t : Txn) {o : TxnOutcome} (ho : o.leavesEntry = true) (used : Nat)
    (r : Option (List Byte)) (s : State) :
    (s.RoomFor 1 → Posts s (finish p t o used r s) [.txnDone t.tag p o used r]) ∧
    (finish p t o used r s).cmd.live = s.cmd.live.filter (fun e => e.tag != t.tag) ∧
    ((finish p t o used r s).port p = s.port p ∨ (finish p t o used r s).port p = (s.port p).refresh) := by
  unfold finish
  rcases tableCompletion_leaves p t ho (dropTag t.tag (postNotice (.txnDone t.tag p o used r) s)) with e | e <;>
    rw [e]
  · exact ⟨fun h => ⟨(postNotice_posts _ s h).reported, (postNotice_posts _ s h).grows⟩, rfl, .inl rfl⟩
  · exact ⟨fun h => ⟨(postNotice_posts _ s h).reported, (postNotice_posts _ s h).grows⟩, rfl, .inr (by simp)⟩

/-- The queued transactions of a flush, in queue order. -/
theorem finishAll_leaves (p : PortId) {o : TxnOutcome} (ho : o.leavesEntry = true) (ts : List Txn) (s : State) :
    (s.RoomFor ts.length → Posts s (finishAll p o ts s) (ts.map fun t => .txnDone t.tag p o 0 none)) ∧
    (finishAll p o ts s).cmd.live = s.cmd.live.filter (fun e => !((ts.map Txn.tag).contains e.tag)) ∧
    ((finishAll p o ts s).port p = s.port p ∨ (finishAll p o ts s).port p = (s.port p).refresh) := by
  induction ts generalizing s with
  | nil => exact ⟨fun _ => Posts.refl s, by simp [finishAll], .inl rfl⟩
  | cons t ts ih =>
    have hf := finish_leaves p t ho 0 none s
    have hi := ih (finish p t o 0 none s)
    have hstep : finishAll p o (t :: ts) s = finishAll p o ts (finish p t o 0 none s) := rfl
    rw [hstep]
    refine ⟨fun hr => ?_, ?_, ?_⟩
    · have h1 := hf.1 (by simp only [State.RoomFor, List.length_cons] at hr ⊢; omega)
      exact h1.trans (hi.1 (h1.room (by
        simp only [State.RoomFor, List.length_cons, List.length_nil] at hr ⊢; omega)))
    · rw [hi.2.1, hf.2.1, List.filter_filter]
      congr 1
      funext e
      by_cases h : e.tag = t.tag <;> simp [h]
    · rcases hi.2.2 with e | e <;> rcases hf.2.2 with e' | e' <;> rw [e, e']
      · exact .inl rfl
      · exact .inr rfl
      · exact .inr rfl
      · exact .inr rfl

/-- The notice of in-flight work that a flush or a quarantine ends. -/
def Port.inFlightNotices (q : Port) (p : PortId) (o : TxnOutcome) : List Notice :=
  match q.inFlight with
  | some ⟨_, .txn r⟩ => [.txnDone r.txn.tag p o r.used none]
  | some ⟨_, .probe _⟩ => []
  | none => []

/-- The tag of in-flight work. -/
def Port.inFlightTags (q : Port) : List Word16 :=
  match q.inFlight with
  | some ⟨_, .txn r⟩ => [r.txn.tag]
  | some ⟨_, .probe _⟩ => []
  | none => []

/-- The port with its in-flight work ended. -/
def Port.withoutWork (q : Port) : Port := if q.inFlight = none then q else q.endExchange

/-- In-flight work ended without the decision. -/
theorem endInFlight_leaves (p : PortId) {o : TxnOutcome} (ho : o.leavesEntry = true) (s : State) :
    (s.RoomFor ((s.port p).inFlightNotices p o).length →
      Posts s (endInFlight p o s) ((s.port p).inFlightNotices p o)) ∧
    (endInFlight p o s).cmd.live = s.cmd.live.filter (fun e => !((s.port p).inFlightTags.contains e.tag)) ∧
    ((endInFlight p o s).port p = (s.port p).withoutWork ∨
      (endInFlight p o s).port p = (s.port p).withoutWork.refresh) := by
  unfold endInFlight Port.inFlightNotices Port.inFlightTags Port.withoutWork
  rcases hq : (s.port p).inFlight with _ | ⟨ph, r | r⟩
  · exact ⟨fun _ => Posts.refl s, by simp, .inl (by simp)⟩
  · have h := finish_leaves p r.txn ho r.used none (s.modPort p Port.endExchange)
    refine ⟨fun hr => ⟨(h.1 hr).reported, (h.1 hr).grows⟩, ?_, .inr ?_⟩
    · simp only [completeRun]
      rw [h.2.1]
      congr 1
      funext e
      by_cases he : e.tag = r.txn.tag <;> simp [he]
    · simp only [completeRun, reduceCtorEq, if_false]
      rcases h.2.2 with e | e <;> rw [e] <;> simp
  · exact ⟨fun _ => .of_link_eq rfl, by simp, .inr (by simp)⟩

/-- A sweep abandoned, if one is active. -/
theorem abandonSweep_spec (p : PortId) (c : SweepCause) (s : State) :
    (s.RoomFor 1 → Posts s (abandonSweep p c s)
      (match (s.port p).sweep with
        | some w => [.sweepDone p w.station w.range (.abandoned c) w.map]
        | none => [])) ∧
    (abandonSweep p c s).cmd.live = s.cmd.live ∧
    ((abandonSweep p c s).port p = { s.port p with sweep := none } ∨
      (abandonSweep p c s).port p = Port.refresh { s.port p with sweep := none }) := by
  unfold abandonSweep endSweep
  rcases hw : (s.port p).sweep with _ | w
  · exact ⟨fun _ => Posts.refl s, rfl, .inl (show s.port p = _ by
      conv_rhs => rw [show (none : Option Sweep) = (s.port p).sweep from hw.symm])⟩
  · refine ⟨fun hr => ?_, rfl, .inr (by simp)⟩
    have h := postNotice_posts (.sweepDone p w.station w.range (.abandoned c) w.map)
      (s.modPort p fun q => { q with sweep := none }) hr
    exact ⟨h.reported, h.grows⟩

theorem FlushCause.leavesEntry (c : FlushCause) : c.outcome.leavesEntry = true := by cases c <;> rfl

theorem Port.flushNotices_eq (q : Port) (p : PortId) (o : TxnOutcome) (c : SweepCause) :
    q.flushNotices p o c = q.inFlightNotices p o ++ q.queue.map (fun t => .txnDone t.tag p o 0 none) ++
      (match q.sweep with
        | some w => [.sweepDone p w.station w.range (.abandoned c) w.map]
        | none => []) := rfl

theorem Port.tags_eq (q : Port) : q.tags = q.inFlightTags ++ q.queue.map Txn.tag := rfl

@[simp] theorem Port.withoutWork_queue (q : Port) : q.withoutWork.queue = q.queue := by
  unfold Port.withoutWork; split <;> rfl
@[simp] theorem Port.withoutWork_sweep (q : Port) : q.withoutWork.sweep = q.sweep := by
  unfold Port.withoutWork; split <;> rfl
@[simp] theorem Port.withoutWork_inFlight (q : Port) : q.withoutWork.inFlight = none := by
  unfold Port.withoutWork; split
  · assumption
  · rfl

/-- Everything a flush does (R23): the notices in order, the tags no longer live, and the port with no work left. -/
theorem flush_spec (p : PortId) (c : FlushCause) (s : State) :
    (s.RoomFor ((s.port p).flushNotices p c.outcome c.sweepCause).length →
      Posts s (flush p c s) ((s.port p).flushNotices p c.outcome c.sweepCause)) ∧
    (flush p c s).cmd.live = s.cmd.live.filter (fun e => !((s.port p).tags.contains e.tag)) ∧
    (flush p c s).port p = Port.refresh
      { (s.port p).withoutWork with queue := [], lateReply := none, sweep := none } := by
  have h1 := endInFlight_leaves p c.leavesEntry s
  have hq : ((endInFlight p c.outcome s).port p).queue = (s.port p).queue := by
    rcases h1.2.2 with e | e <;> rw [e] <;> simp
  have hs : ((endInFlight p c.outcome s).port p).sweep = (s.port p).sweep := by
    rcases h1.2.2 with e | e <;> rw [e] <;> simp
  have hp (u : Port) (hu : u = (s.port p).withoutWork ∨ u = (s.port p).withoutWork.refresh) :
      Port.refresh { u with queue := [], lateReply := none } =
        Port.refresh { (s.port p).withoutWork with queue := [], lateReply := none } := by
    rcases hu with e | e <;> rw [e] <;> rfl
  obtain ⟨s1, h1s⟩ : ∃ s1, s1 = endInFlight p c.outcome s := ⟨_, rfl⟩
  rw [← h1s] at h1 hq hs
  obtain ⟨s2, h2s⟩ : ∃ s2, s2 = s1.modPort p fun q => { q with queue := [], lateReply := none } := ⟨_, rfl⟩
  have h2 := finishAll_leaves p c.leavesEntry (s.port p).queue s2
  have hp2 : s2.port p = Port.refresh { (s.port p).withoutWork with queue := [], lateReply := none } := by
    rw [h2s, State.modPort_port_same]; exact hp _ h1.2.2
  obtain ⟨s3, h3s⟩ : ∃ s3, s3 = finishAll p c.outcome (s.port p).queue s2 := ⟨_, rfl⟩
  rw [← h3s] at h2
  have hp3 : s3.port p = Port.refresh { (s.port p).withoutWork with queue := [], lateReply := none } := by
    rcases h2.2.2 with e | e <;> rw [e, hp2] <;> rfl
  have h3 := abandonSweep_spec p c.sweepCause s3
  have hf : flush p c s = abandonSweep p c.sweepCause s3 := by
    unfold flush; rw [h3s, h2s, h1s]; dsimp only; rw [← h1s, hq]
  have hsw : (s3.port p).sweep = (s.port p).sweep := by rw [hp3]; simp
  have hlink2 : s2.link = s1.link := by rw [h2s]; rfl
  have hlive2 : s2.cmd = s1.cmd := by rw [h2s]; rfl
  refine ⟨fun hr => ?_, ?_, ?_⟩
  · rw [Port.flushNotices_eq, List.length_append, List.length_append, List.length_map] at hr
    have r1 := h1.1 (by simp only [State.RoomFor] at hr ⊢; omega)
    have r2 : Posts s1 s2 [] := .of_link_eq hlink2
    have r12 := r1.trans r2
    rw [List.append_nil] at r12
    have r3 := h2.1 (r12.room (by simp only [State.RoomFor] at hr ⊢; omega))
    have r123 := r12.trans r3
    rw [hf, Port.flushNotices_eq]
    rcases hsweep : (s.port p).sweep with _ | w
    · have : abandonSweep p c.sweepCause s3 = s3 := by simp [abandonSweep, hsw, hsweep]
      rw [this]
      simpa using r123
    · rw [hsweep] at hr hsw
      have r4 := h3.1 (r123.room (by
        simp only [State.RoomFor, List.length_append, List.length_map, List.length_cons, List.length_nil] at hr ⊢
        omega))
      rw [hsw] at r4
      exact r123.trans r4
  · rw [hf, h3.2.1, h2.2.1, hlive2, h1.2.1, List.filter_filter, Port.tags_eq]
    congr 1
    funext e
    rw [List.contains_eq_mem, List.contains_eq_mem, List.contains_eq_mem]
    simp only [List.mem_append, ← Bool.not_or, ← Bool.decide_or]
    congr 2
    exact propext Or.comm
  · rw [hf]
    rcases h3.2.2 with e | e <;> rw [e, hp3] <;> rfl

end Sys2Proof.Machine
end

