-- ==== Sys2Proof/Laws/PerInstr.lean ====
section
/-! SUPPORT. The per-command law TableRow: spec/opcode_table.json gives a command's row no bits, so no word spells
the command. One lemma per constructor. -/

namespace Sys2Proof.Laws.TableRow

/-- No word of any length spells the command. -/
def Statement (i : Instr) : Prop := ∀ nbits w, decodeTableWord nbits w ≠ some i

/-- The decoder spells no command at all. -/
theorem statement_of_decode (i : Instr) : Statement i := fun _ _ h => nomatch h

theorem identify : Statement .identify := statement_of_decode _
theorem hubStatus : Statement .hubStatus := statement_of_decode _
theorem hubReset : Statement .hubReset := statement_of_decode _
theorem setDrift : Statement .setDrift := statement_of_decode _
theorem portEnable : Statement .portEnable := statement_of_decode _
theorem portDisable : Statement .portDisable := statement_of_decode _
theorem portReset : Statement .portReset := statement_of_decode _
theorem portStatus : Statement .portStatus := statement_of_decode _
theorem setTermination : Statement .setTermination := statement_of_decode _
theorem dozeEnter : Statement .dozeEnter := statement_of_decode _
theorem dozeLeave : Statement .dozeLeave := statement_of_decode _
theorem calibrate : Statement .calibrate := statement_of_decode _
theorem addStation : Statement .addStation := statement_of_decode _
theorem removeStation : Statement .removeStation := statement_of_decode _
theorem releaseStation : Statement .releaseStation := statement_of_decode _
theorem setThreshold : Statement .setThreshold := statement_of_decode _
theorem stationStatus : Statement .stationStatus := statement_of_decode _
theorem sweep : Statement .sweep := statement_of_decode _
theorem submit : Statement .submit := statement_of_decode _
theorem cancel : Statement .cancel := statement_of_decode _
theorem queueList : Statement .queueList := statement_of_decode _
theorem unknownCommand : Statement .unknownCommand := statement_of_decode _
theorem powerOn : Statement .powerOn := statement_of_decode _
theorem resetNAssert : Statement .resetNAssert := statement_of_decode _
theorem resetNRelease (linksel : BitVec 2) : Statement (.resetNRelease linksel) := statement_of_decode _
theorem hubResetCarriedOut (linksel : BitVec 2) : Statement (.hubResetCarriedOut linksel) := statement_of_decode _
theorem startUpEnd : Statement .startUpEnd := statement_of_decode _
theorem hostByteReceived (b : Byte) : Statement (.hostByteReceived b) := statement_of_decode _
theorem charFraming : Statement .charFraming := statement_of_decode _
theorem linkBreak : Statement .linkBreak := statement_of_decode _
theorem hostGapTimeout : Statement .hostGapTimeout := statement_of_decode _
theorem txFrameEnd : Statement .txFrameEnd := statement_of_decode _
theorem characterReceived (p : PortId) (c : RxChar) : Statement (.characterReceived p c) := statement_of_decode _
theorem characterGapExpiry (p : PortId) : Statement (.characterGapExpiry p) := statement_of_decode _
theorem lineBecomesIdle (p : PortId) : Statement (.lineBecomesIdle p) := statement_of_decode _
theorem frameSent (p : PortId) : Statement (.frameSent p) := statement_of_decode _
theorem collision (p : PortId) : Statement (.collision p) := statement_of_decode _
theorem startInTurnaround (p : PortId) : Statement (.startInTurnaround p) := statement_of_decode _
theorem turnaroundExpiry (p : PortId) : Statement (.turnaroundExpiry p) := statement_of_decode _
theorem replyTimeout (p : PortId) : Statement (.replyTimeout p) := statement_of_decode _
theorem stuckLineExpiry (p : PortId) : Statement (.stuckLineExpiry p) := statement_of_decode _
theorem quickCalExpiry (p : PortId) : Statement (.quickCalExpiry p) := statement_of_decode _
theorem newInterval (p : PortId) : Statement (.newInterval p) := statement_of_decode _
theorem calibrationRequest (p : PortId) : Statement (.calibrationRequest p) := statement_of_decode _
theorem upgrade (p : PortId) : Statement (.upgrade p) := statement_of_decode _
theorem grant (p : PortId) : Statement (.grant p) := statement_of_decode _
theorem windowOpen (p : PortId) : Statement (.windowOpen p) := statement_of_decode _
theorem comparisonDecided (answer : Comparison) : Statement (.comparisonDecided answer) := statement_of_decode _
theorem spoilReport (p : PortId) : Statement (.spoilReport p) := statement_of_decode _
theorem windowEnd (p : PortId) : Statement (.windowEnd p) := statement_of_decode _
theorem acknowledgement (p : PortId) : Statement (.acknowledgement p) := statement_of_decode _
theorem closure (p : PortId) : Statement (.closure p) := statement_of_decode _
theorem withdrawal (p : PortId) : Statement (.withdrawal p) := statement_of_decode _
theorem activeSample (p : PortId) : Statement (.activeSample p) := statement_of_decode _
theorem startBitAccepted (p : PortId) (atLimit : Bool) : Statement (.startBitAccepted p atLimit) := statement_of_decode _
theorem restLevelSample (p : PortId) : Statement (.restLevelSample p) := statement_of_decode _
theorem rxdReturnsHigh : Statement .rxdReturnsHigh := statement_of_decode _

end Sys2Proof.Laws.TableRow
end

