-- ==== Sys2Proof/Laws/Work.lean ====
section
/-! SUPPORT. The choice and the beginning of work, the failing and completing of attempts, said once; and that none of
it reads the records a port computes. -/

namespace Sys2Proof.Machine

@[simp] theorem Port.beginIfIdle_refresh (q : Port) : q.refresh.beginIfIdle.refresh = q.beginIfIdle.refresh := by
  unfold Port.beginIfIdle
  rw [Port.refresh_inFlight]
  rcases q.inFlight with _ | f
  · rfl
  · dsimp only
    have e : q.refresh.lineIdle = q.lineIdle := rfl
    by_cases h : (f.phase = .waitingIdle ∨ f.phase = .recovering) ∧ q.lineIdle = true
    · rw [if_pos h, if_pos (e ▸ h)]; rfl
    · rw [if_neg h, if_neg (e ▸ h)]; rfl

/-- Ports that agree once their computed records are brought up to date begin work alike. -/
theorem Port.beginIfIdle_congr {q r : Port} (h : q.refresh = r.refresh) :
    q.beginIfIdle.refresh = r.beginIfIdle.refresh := by
  rw [← q.beginIfIdle_refresh, h, r.beginIfIdle_refresh]

/-- The queue head is taken alike from a port whose computed records are brought up to date. -/
theorem Port.takeHead_refresh (q : Port) : q.refresh.takeHead.refresh = q.takeHead.refresh := by
  unfold Port.takeHead
  rw [Port.refresh_queue]
  rcases q.queue with _ | ⟨t, rest⟩
  · rfl
  · exact Port.beginIfIdle_congr rfl

/-- A probe is begun alike. -/
theorem Port.takeProbe_refresh (q : Port) (w : Sweep) : (q.refresh.takeProbe w).refresh = (q.takeProbe w).refresh :=
  Port.beginIfIdle_congr rfl

@[simp] theorem Port.nextWork_refresh (q : Port) : q.refresh.nextWork.refresh = q.nextWork.refresh := by
  unfold Port.nextWork
  by_cases h : q.state.inService = true ∧ q.inFlight = none ∧ q.claim ≠ .window
  · have h' : q.refresh.state.inService = true ∧ q.refresh.inFlight = none ∧ q.refresh.claim ≠ .window := h
    rw [if_pos h, if_pos h']
    by_cases hg : q.claim = .granted
    · rw [if_pos hg, if_pos (show q.refresh.claim = .granted from hg)]; rfl
    · rw [if_neg hg, if_neg (show q.refresh.claim ≠ .granted from hg), Port.refresh_sweep]
      rcases q.sweep with _ | w
      · exact q.takeHead_refresh
      · dsimp only
        by_cases hl : w.last = .probe ∧ q.queue ≠ []
        · rw [if_pos hl, if_pos (show w.last = .probe ∧ q.refresh.queue ≠ [] from hl)]; exact q.takeHead_refresh
        · rw [if_neg hl, if_neg (show ¬ (w.last = .probe ∧ q.refresh.queue ≠ []) from hl)]; exact q.takeProbe_refresh w
  · have h' : ¬ (q.refresh.state.inService = true ∧ q.refresh.inFlight = none ∧ q.refresh.claim ≠ .window) := h
    rw [if_neg h, if_neg h']; rfl

/-- Ports that agree once their computed records are brought up to date choose their work alike. -/
theorem Port.nextWork_congr {q r : Port} (h : q.refresh = r.refresh) : q.nextWork.refresh = r.nextWork.refresh := by
  rw [← q.nextWork_refresh, h, r.nextWork_refresh]

end Sys2Proof.Machine
end

