-- ==== Sys2Proof/WellFormed.lean ====
section
/-! DEFINITION. Well-formedness. The operand types of `Instr` admit no ill-formed event, so the checks are those of
the host frames that carry the host commands' operands: a KIND of the catalogue, a body of the catalogue's length, a
frame the inbound framer can have made (R154, R164). The machine does not rest on them: it answers an ill-formed
frame with a result code (R165). -/

namespace Sys2Proof

/-- The KIND codes of commands, 01h to 14h (R154). -/
def HostFrame.knownKind (f : HostFrame) : Bool := decide (1 ≤ f.kind.toNat ∧ f.kind.toNat ≤ 20)

/-- The body lengths of R164's table, KIND by KIND: least and greatest. -/
def bodyLengths : List (Nat × Nat × Nat) :=
  [(1, 0, 0), (2, 0, 0), (3, 0, 0), (4, 4, 4), (5, 5, 5), (6, 1, 1), (7, 1, 1), (8, 1, 1), (9, 5, 5), (10, 2, 2)]
  ++ [(11, 2, 2), (12, 4, 4), (13, 2, 2), (14, 2, 2), (15, 4, 4), (16, 2, 2), (17, 3, 3), (18, 8, 56), (19, 2, 2),
      (20, 1, 1)]

/-- The body has a length R164 gives its KIND. -/
def HostFrame.lengthOk (f : HostFrame) : Bool :=
  bodyLengths.any fun row => row.1 == f.kind.toNat && decide (row.2.1 ≤ f.body.length ∧ f.body.length ≤ row.2.2)

/-- LEN covers KIND, SEQ and BODY and is at most 62, so BODY has at most 60 bytes (R154). -/
def HostFrame.fits (f : HostFrame) : Bool := decide (f.body.length ≤ 60)

/-- A frame that passes the first two common checks of R165. -/
def HostFrame.wellFormed (f : HostFrame) : Bool := f.knownKind && f.lengthOk && f.fits

end Sys2Proof
end

