-- ==== Sys2Proof/Tests/Slice0.lean ====
section
/-! SUPPORT. The model's own tests: the ill-formed frames that the check refuses, the spec's worked values, and for every
obligation a state and operands that meet its hypotheses, clause by clause, with the effect that follows. -/

namespace Sys2Proof.Tests

open Sys2Proof.Machine

set_option Elab.async false
set_option synthInstance.maxSize 3000
set_option synthInstance.maxHeartbeats 200000

/-! ### Well-formed frames -/

theorem test_wellFormed_good : HostFrame.wellFormed ⟨0x12, 9, List.replicate 56 0⟩ = true := by decide +kernel
theorem test_knownKind_refuses : HostFrame.knownKind ⟨0x15, 0, []⟩ = false ∧
    HostFrame.wellFormed ⟨0, 0, []⟩ = false := by decide +kernel
theorem test_lengthOk_refuses : HostFrame.lengthOk ⟨0x12, 0, List.replicate 57 0⟩ = false ∧
    HostFrame.wellFormed ⟨0x01, 0, [0]⟩ = false := by decide +kernel
theorem test_fits_refuses : HostFrame.fits ⟨0x12, 0, List.replicate 61 0⟩ = false := by decide +kernel

/-! ### Worked values of the spec -/

theorem test_check_worked : checkOf [0x05] = 0x582A ∧ checkOf [0x05, 0x02] = 0xAD12 ∧
    checkOf [0x05, 0x02, 0x10, 0x20] = 0x6C5D := by decide +kernel
theorem test_request_frame : frameChars .request 5 [0x10, 0x20] =
    [⟨0x05, true⟩, ⟨0x02, false⟩, ⟨0x10, false⟩, ⟨0x20, false⟩, ⟨0x5D, false⟩, ⟨0x6C, false⟩] := by decide +kernel
theorem test_head_bits : LineChar.bits ⟨0x05, true⟩ =
    [false, true, false, true, false, false, false, false, false, true, true] := by decide +kernel
theorem test_intervals : intervalOf 500 2000 = 3508 ∧ intervalOf 20000 50000 = 100 ∧ intervalOf 0 0 = 60000 ∧
    intervalOf 37 0 = 60000 ∧ intervalOf 0 556 = 59952 ∧ intervalOf 0 50000 = 666 ∧ intervalOf 20000 0 = 111 ∧
    intervalOf 20000 33334 = 100 := by decide +kernel

/-- The pass map with PASS at the listed codes. -/
def passAt (codes : List Nat) : List PassEntry :=
  (List.range 32).map fun i => if codes.contains i then .pass else .fail

/-- The notice bodies worked in 11.5 and 11.6. -/
theorem test_notice_bodies :
    Notice.body (.sweepDone 7 33 .low (.done 14 9 11) (passAt (List.range' 9 11 ++ [24, 25, 26]))) =
      [7, 33, 1, 1, 0, 0x0E, 9, 0x0B, 0x00, 0xFE, 0x0F, 0x07] ∧
    Notice.body (.txnDone 500 4 .done 2 (some [1, 2, 3, 4])) =
      [0xF4, 0x01, 0x04, 0x01, 0x02, 0x04, 1, 2, 3, 4] := by decide +kernel

theorem test_choice_worked :
    chooseRun (passAt (List.range' 9 11 ++ [24, 25, 26])) = ⟨9, 11⟩ ∧
    chooseRun (passAt (List.range' 4 5 ++ List.range' 20 5)) = ⟨4, 5⟩ ∧
    chooseRun (passAt [0, 1, 5, 6, 30, 31]) = ⟨0, 2⟩ ∧ chooseRun (passAt []) = ⟨0, 0⟩ ∧
    (chooseRun (passAt (List.range 32))).middle = 15 := by decide +kernel
theorem test_samples : Samples.majority ⟨.active, .rest, .active⟩ = .active ∧
    Samples.disagree ⟨.active, .rest, .active⟩ = true ∧ Samples.acceptsStart ⟨.rest, .active, .rest⟩ = false := by
  decide +kernel
theorem test_character : RxChar.ofSamples ⟨.active, .active, .active⟩
    #v[⟨.rest, .rest, .active⟩, ⟨.active, .active, .active⟩, ⟨.rest, .rest, .rest⟩, ⟨.active, .active, .active⟩,
       ⟨.active, .active, .active⟩, ⟨.active, .active, .active⟩, ⟨.active, .active, .active⟩,
       ⟨.active, .active, .active⟩] ⟨.rest, .rest, .rest⟩ ⟨.rest, .rest, .rest⟩ = ⟨0x05, true, true, false⟩ := by
  decide +kernel
theorem test_thresholds : Threshold.permille ⟨.low, 14⟩ = 410 ∧ Threshold.permille ⟨.high, 1⟩ = 415 ∧
    sampleLevel 500 .portDefault = .active ∧ sampleLevel 499 .portDefault = .rest := by decide +kernel

/-- A5h on the host link, sampled back, and what a low stop bit makes of it (R152, R153). -/
theorem test_host_bits :
    hostByteBits 0xA5 = [false, true, false, true, false, false, true, false, true, true] ∧
    hostByteEvent #v[true, false, true, false, false, true, false, true] true 1 = .hostByteReceived 0xA5 ∧
    hostByteEvent #v[true, false, true, false, false, true, false, true] false 19 = .charFraming ∧
    hostByteEvent #v[false, false, false, false, false, false, false, false] false 20 = .linkBreak ∧
    (Tx.response ⟨0x81, 0, .ok, []⟩).bits.length = 70 ∧ (Tx.response ⟨0x81, 0, .ok, []⟩).level 0 = false ∧
    (Tx.response ⟨0x81, 0, .ok, []⟩).level 70 = true ∧ Tx.idle.level 0 = true := by decide +kernel

/-! ### States to test on -/

/-- A command's next state. -/
def after (c : Instr) (s : State) : State :=
  match exec c s with
  | .next t => t
  | .fault _ => s
  | .refused _ => s

/-- A command answers a next state. -/
def answersNext (c : Instr) (s : State) : Bool :=
  match exec c s with
  | .next _ => true
  | .fault _ => false
  | .refused _ => false

/-- The command answers a next state, of which `P` holds. -/
abbrev Ran (c : Instr) (s : State) (P : State → Prop) : Prop := answersNext c s = true ∧ P (after c s)

/-- A running hub, its transmitter idle, every port OFF. -/
def hub : State :=
  { State.reset with
    power := .running
    link := { Link.reset with rate := 1, receiver := .hunting, nextNotice := 255 } }

/-- The frame that `given` puts at the head of the inbound buffer. -/
def frame (kind : Byte) (body : List Byte) : HostFrame := ⟨kind, 9, body⟩

/-- A hub with one frame in its inbound buffer. -/
def given (s : State) (kind : Byte) (body : List Byte) : State :=
  { s with link := { s.link with inbound := [frame kind body] } }

/-- A READY port with stations 1 and 2, its line not idle. -/
def readyPort : Port :=
  { Port.reset with
    settings := ⟨4, 3, 10, 2⟩
    state := .ready
    timer := .running 500
    stations := [Station.create 1 none, Station.create 2 (some ⟨.high, 7⟩)]
    line := Port.reset.line.switchOn }

/-- Port 0 of a running hub. -/
def on (q : Port) : State := hub.setPort 0 q

/-- A transaction of station `a`. -/
def sample (tag : Word16) (kind : TxnKind) (a : Addr) : Txn :=
  ⟨tag, kind, .normal, some a, 2, if kind = .request then some 4 else none, [0x10, 0x20]⟩

/-- A REQUEST to station 1, `used` of its two attempts begun. -/
def request (used : Nat) : TxnRun := ⟨sample 5 .request 1, 2, used, none, none⟩

/-- A probe to station 1. -/
def probe : ProbeRun := ⟨1, .low, 3⟩

/-- A sweep of station 1. -/
def sweepAt (next : Nat) : Sweep := ⟨1, .low, next, passAt [4, 5, 6], 0, .probe⟩

/-- A port with work in flight. -/
def flying (ph : Phase) (w : Work) (line : LineIf) : Port :=
  { readyPort with inFlight := some ⟨ph, w⟩, sweep := some (sweepAt 3), line := line }

/-- The line of `readyPort`. -/
def line : LineIf := readyPort.line

/-- A hub whose notice queue has only just room for one more, its transmitter busy. -/
def full (s : State) : State :=
  { s with link := { s.link with
      notices := List.replicate 32 ⟨0, .hubReady .power⟩, lost := 65535
      tx := .response ⟨0x81, 0, .ok, []⟩ } }

/-! ### The queue of commands, resets, start-up -/

theorem test_step_front :
    (match step { hub with pending := [.linkBreak, .powerOn] } with
      | .next t => t == after .linkBreak { hub with pending := [.powerOn] }
      | .fault _ => false
      | .refused _ => false) = true := by decide +kernel
theorem test_step_idle :
    (match step (on readyPort) with
      | .next t => decide ((t.port 0).timer = .running 499 ∧ t.link = hub.link)
      | .fault _ => false
      | .refused _ => false) = true := by decide +kernel
theorem test_resets : after .resetNAssert (on readyPort) = State.reset ∧ after .powerOn hub = State.reset := by
  decide +kernel
theorem test_startUp :
    Ran (.resetNRelease 2) State.reset (fun t => t.power = .startUp .power ∧ t.link.rate = 2) ∧
    Ran .startUpEnd (after (.resetNRelease 2) State.reset) (fun t =>
      t.power = .running ∧ t.link.tx = .notice ⟨0, .hubReady .power⟩ ∧ t.link.receiver = .waitHigh) := by decide +kernel
theorem test_hubReset :
    (given hub 3 []).Takes (frame 3 []) ∧
    Ran .hubReset (given hub 3 []) (fun t => t.cmd = ⟨[], true⟩ ∧
      Answered (given hub 3 []) t (frame 3 []) .ok []) ∧
    Ran (.hubResetCarriedOut 3) (after .hubReset (given hub 3 [])) (fun t =>
      t.power = .startUp .command ∧ t.link.rate = 3) ∧
    after .identify { given hub 1 [] with cmd := ⟨[], true⟩ } = { given hub 1 [] with cmd := ⟨[], true⟩ } := by
  decide +kernel

/-! ### The host link -/

/-- The inbound commands of a whole SUBMIT frame (section 10.7). -/
def submitBytes : List Instr :=
  (hostFrameBytes 0x12 9 [4, 0x58, 0x02, 1, 1, 21, 2, 8, 1, 2, 3]).map Instr.hostByteReceived

/-- The state after a list of commands. -/
def ran (cs : List Instr) (s : State) : State := cs.foldl (fun s c => after c s) s

theorem test_frame_bytes : (ran submitBytes hub).link.inbound = [⟨0x12, 9, [4, 0x58, 0x02, 1, 1, 21, 2, 8, 1, 2, 3]⟩] ∧
    (ran submitBytes hub).link.framer = .hunt ∧ submitBytes.length = 17 := by decide +kernel
theorem test_bad_bytes :
    Ran (.hostByteReceived 63) { hub with link := { hub.link with framer := .length } } (fun t =>
      t.link.framer = .hunt ∧ t.link.reports = [⟨255, .linkError .length⟩]) ∧
    Ran (.hostByteReceived 1) { hub with link := { hub.link with framer := .length } } (fun t =>
      t.link.reports = [⟨255, .linkError .length⟩]) ∧
    Ran (.hostByteReceived 0) { hub with link := { hub.link with framer := .checkHigh 2 1 0 [] 0 } } (fun t =>
      t.link.framer = .hunt ∧ t.link.reports = [⟨255, .linkError .check⟩]) ∧
    Ran (.hostByteReceived (highByte (checkOf [2, 1, 0]))) { hub with link := { hub.link with
        inbound := List.replicate 4 (frame 1 []), framer := .checkHigh 2 1 0 [] (lowByte (checkOf [2, 1, 0])) } }
      (fun t => t.link.framer = .hunt ∧ t.link.reports = [⟨255, .linkError .overflow⟩] ∧ t.link.inbound.length = 4) := by
  decide +kernel
theorem test_link_errors :
    Ran .charFraming { hub with link := { hub.link with framer := .length } } (fun t =>
      t.link.framer = .hunt ∧ t.link.reports = [⟨255, .linkError .charFraming⟩]) ∧
    Ran .linkBreak hub (fun t => t.link.receiver = .waitHigh ∧ t.link.reports = [⟨255, .linkError .brk⟩]) ∧
    Ran .hostGapTimeout { hub with link := { hub.link with framer := .length, gapRunning := true } } (fun t =>
      t.link.framer = .hunt ∧ t.link.reports = [⟨255, .linkError .gap⟩]) ∧
    after .hostGapTimeout { hub with link := { hub.link with gapRunning := true } } =
      { hub with link := { hub.link with gapRunning := true } } ∧
    Ran .rxdReturnsHigh { hub with link := { hub.link with receiver := .waitHigh } } (fun t => t = hub) := by
  decide +kernel
theorem test_transmitter :
    Ran .txFrameEnd (full hub) (fun t => t.link.notices.length = 32 ∧ t.link.lost = 0 ∧
      t.link.notices.getLast? = some ⟨255, .noticesLost 65535⟩) ∧
    Ran .txFrameEnd { full hub with link := { (full hub).link with responses := [⟨0x82, 1, .ok, []⟩] } } (fun t =>
      t.link.tx = .response ⟨0x82, 1, .ok, []⟩ ∧ t.link.lost = 65535) ∧
    Ran .txFrameEnd { hub with link := { hub.link with tx := .notice ⟨0, .hubReady .power⟩ } } (fun t =>
      t.link.tx = .idle) ∧
    (postNotice (.hubReady .power) (full hub)).link = (full hub).link ∧
    (postNotice (.hubReady .power) { full hub with link := { (full hub).link with notices := [] } }).link.nextNotice =
      0 := by decide +kernel

/-! ### Host commands -/

theorem test_common_checks :
    Ran .unknownCommand (given hub 0 []) (fun t => t.link.answers = [⟨0x80, 9, .unknownCommand, []⟩]) ∧
    Ran .unknownCommand (given hub 21 []) (fun t => t.link.answers = [⟨0x80, 9, .unknownCommand, []⟩]) ∧
    Ran .submit (given hub 18 (List.replicate 57 0)) (fun t =>
      Refused (given hub 18 (List.replicate 57 0)) t (frame 18 (List.replicate 57 0)) .badLength) ∧
    Ran .portEnable (given hub 5 [8, 9, 9, 9, 9]) (fun t =>
      Refused (given hub 5 [8, 9, 9, 9, 9]) t (frame 5 [8, 9, 9, 9, 9]) .badPort) ∧
    Ran .dozeEnter (given hub 10 [0]) (fun t => Refused (given hub 10 [0]) t (frame 10 [0]) .badLength) ∧
    Ran .dozeLeave (given hub 10 [8, 2]) (fun t => Refused (given hub 10 [8, 2]) t (frame 10 [8, 2]) .badPort) := by
  decide +kernel
/-- Bodies with a field just outside its range, command by command (R58, R164). -/
def badBodies : List (Instr × Byte × List Byte) :=
  [(.setDrift, 4, [0x21, 0x4E, 0, 0]), (.setDrift, 4, [0, 0, 0x51, 0xC3]), (.portEnable, 5, [0, 6, 2, 1, 1]),
   (.portEnable, 5, [0, 0, 1, 1, 1]), (.portEnable, 5, [0, 0, 16, 1, 1]), (.portEnable, 5, [0, 0, 2, 0, 1]),
   (.portEnable, 5, [0, 0, 2, 1, 5]), (.setTermination, 9, [0, 8, 0, 0, 0]), (.setTermination, 9, [0, 0, 0, 0, 2]),
   (.calibrate, 11, [0, 0]), (.calibrate, 11, [0, 3]), (.addStation, 12, [0, 0, 1, 0]),
   (.addStation, 12, [0, 64, 1, 0]), (.addStation, 12, [0, 1, 3, 255]), (.addStation, 12, [0, 1, 1, 32])]

/-- More of them. -/
def worseBodies : List (Instr × Byte × List Byte) :=
  [(.removeStation, 13, [0, 0]), (.releaseStation, 14, [0, 64]), (.setThreshold, 15, [0, 1, 0, 0]),
   (.setThreshold, 15, [0, 1, 1, 255]), (.stationStatus, 16, [0, 0]), (.sweep, 17, [0, 1, 3]),
   (.submit, 18, [0, 0, 0, 1, 1, 1, 0, 0]), (.submit, 18, [0, 1, 0, 4, 1, 1, 0, 0]),
   (.submit, 18, [0, 1, 0, 1, 3, 1, 0, 0]), (.submit, 18, [0, 1, 0, 1, 1, 0, 0, 0]),
   (.submit, 18, [0, 1, 0, 3, 1, 1, 0, 0]), (.submit, 18, [0, 1, 0, 1, 1, 1, 5, 0]),
   (.submit, 18, [0, 1, 0, 1, 1, 1, 0, 49]), (.submit, 18, [0, 1, 0, 2, 1, 1, 0, 1]), (.cancel, 19, [0, 0])]

/-- A body of the list is out of range in its line of R164, and its frame is refused BAD_VALUE. -/
abbrev RefusesValue (b : Instr × Byte × List Byte) : Prop :=
  (hostRows.any fun row => row.kind == b.2.1.toNat && row.command == b.1 && !row.inRange b.2.2) = true ∧
  Ran b.1 (given hub b.2.1 b.2.2) fun t => Refused (given hub b.2.1 b.2.2) t (frame b.2.1 b.2.2) .badValue

theorem test_bad_values : ∀ b ∈ badBodies, RefusesValue b := by decide +kernel
theorem test_worse_values : (∀ b ∈ worseBodies, RefusesValue b) ∧
    Ran .dozeEnter (given hub 10 [0, 3]) (fun t => Refused (given hub 10 [0, 3]) t (frame 10 [0, 3]) .badValue) := by
  decide +kernel

/-- A hub whose port 3 holds the reference, with `queue` behind it. -/
def held (s : State) (queue : List Request) : State :=
  { s with trim := { s.trim with queue := queue, holder := some ⟨⟨3, .quick, .auto, 1, 4⟩, .granted⟩ } }

theorem test_status_commands :
    Ran .identify (given hub 1 []) (fun t =>
      Answered (given hub 1 []) t (frame 1 []) .ok [0xB4, 0x48, 0x01, 3, 8, 16, 16]) ∧
    Ran .hubStatus (given (held hub [⟨0, .full, .host, 2, 1⟩]) 2 []) (fun t =>
      SameBlocks (given (held hub [⟨0, .full, .host, 2, 1⟩]) 2 []) t ∧
      t.link.answers = [⟨0x82, 9, .ok, [3, 1, 1, 0, 0, 0, 0, 0x60, 0xEA, 0, 0, 0, 0, 0, 1, 2, 2]⟩]) ∧
    Ran .portStatus (given hub 8 [7]) (fun t => Answered (given hub 8 [7]) t (frame 8 [7]) .ok (portStatusData hub 7)) ∧
    Ran .stationStatus (given (on readyPort) 16 [0, 2]) (fun t =>
      t.link.answers = [⟨0x90, 9, .ok, [2, 2, 1, 0, 0, 2, 7, 2, 0, 0, 0, 0, 0, 0, 0, 0, 0, 0]⟩]) ∧
    Ran .stationStatus (given (on readyPort) 16 [0, 63]) (fun t =>
      Refused (given (on readyPort) 16 [0, 63]) t (frame 16 [0, 63]) .unknownStation) ∧
    Ran .queueList (given (on { flying .awaiting (.txn (request 1)) line with
        queue := [sample 6 .post 1, sample 0x107 .request 2] }) 20 [0]) (fun t =>
      t.link.answers = [⟨0x94, 9, .ok, [5, 0, 2, 6, 0, 7, 1]⟩]) := by decide +kernel
theorem test_setDrift :
    Ran .setDrift (given hub 4 [0xF4, 0x01, 0xD0, 0x07]) (fun t => t.trim.interval = 3508 ∧
      (t.port 7).newIntervals = [3508] ∧ t.link.answers = [⟨0x84, 9, .ok, [0xB4, 0x0D]⟩]) ∧
    Ran .setDrift (given hub 4 [0x21, 0x4E, 0, 0]) (fun t =>
      Refused (given hub 4 [0x21, 0x4E, 0, 0]) t (frame 4 [0x21, 0x4E, 0, 0]) .badValue) := by decide +kernel
theorem test_portEnable :
    Ran .portEnable (given hub 5 [7, 5, 15, 255, 4]) (fun t => (t.port 7).state = .trimming .full ∧
      (t.port 7).toTrim = [.request ⟨7, .full, .auto, 1, 1⟩] ∧
      Reported (given hub 5 [7, 5, 15, 255, 4]) t [.portState 7 (.trimming .full) .enabled]) ∧
    Ran .portEnable (given (on readyPort) 5 [0, 0, 2, 1, 1]) (fun t =>
      Refused (given (on readyPort) 5 [0, 0, 2, 1, 1]) t (frame 5 [0, 0, 2, 1, 1]) .portState) := by decide +kernel

/-- A port with work of every kind. -/
def busyPort : Port :=
  { flying .awaiting (.txn (request 1)) line with queue := [sample 6 .post 1, sample 7 .request 2], claim := .queued }

/-- The hub with `busyPort` and its live tags. -/
def busy : State := { on busyPort with cmd := ⟨[⟨5, 0⟩, ⟨6, 0⟩, ⟨7, 0⟩, ⟨8, 1⟩], false⟩ }

theorem test_portDisable :
    (given busy 6 [0]).RoomFor 5 ∧
    Ran .portDisable (given busy 6 [0]) (fun t =>
      Reported (given busy 6 [0]) t (.portState 0 .off .disabled :: busyPort.flushNotices 0 .portDisabled .portDisabled) ∧
      (busyPort.flushNotices 0 .portDisabled .portDisabled).length = 4 ∧ t.cmd.live = [⟨8, 1⟩] ∧
      (t.port 0).state = .off ∧ (t.port 0).toTrim = [.withdraw 0]) ∧
    Ran .portDisable (given hub 6 [0]) (fun t => SameBlocks (given hub 6 [0]) t) := by decide +kernel
theorem test_portReset :
    Ran .portReset (given busy 7 [0]) (fun t =>
      (t.port 0).state = .trimming .full ∧ (t.port 0).queue = [] ∧ (t.port 0).line.receiver = .hunting ∧
      (t.port 0).toTrim = [.withdraw 0, .request ⟨0, .full, .auto, 1, 1⟩]) ∧
    Ran .portReset (given (on { Port.reset with state := .doze }) 7 [0]) (fun t =>
      (t.port 0).line.receiver = .hunting ∧ (t.port 0).line.stuck = .counting) ∧
    Ran .portReset (given (on { readyPort with claim := .window, line := { line with
        driver := .disconnected, spoilWatch := some 0, receiver := .waitRest } }) 7 [0]) (fun t =>
      (t.port 0).line.driver = .released ∧ (t.port 0).line.spoilWatch = none ∧
      (t.port 0).line.receiver = .waitRest ∧ (t.port 0).toTrim.length = 2) ∧
    Ran .portReset (given hub 7 [0]) (fun t => Refused (given hub 7 [0]) t (frame 7 [0]) .portState) := by decide +kernel
theorem test_setTermination :
    Ran .setTermination (given (on readyPort) 9 [0, 7, 0, 1, 1]) (fun t =>
      (t.port 0).profile = ⟨some 7, none, some 1, true⟩ ∧ (t.port 0).selected = ⟨.park, 7⟩) ∧
    Ran .setTermination (given hub 9 [0, 8, 0, 0, 0]) (fun t =>
      Refused (given hub 9 [0, 8, 0, 0, 0]) t (frame 9 [0, 8, 0, 0, 0]) .badValue) ∧
    Ran .setTermination (given hub 9 [0, 0, 0, 0, 2]) (fun t =>
      Refused (given hub 9 [0, 0, 0, 0, 2]) t (frame 9 [0, 0, 0, 0, 2]) .badValue) := by decide +kernel
theorem test_doze :
    Ran .dozeEnter (given (on readyPort) 10 [0, 1]) (fun t => (t.port 0).state = .doze ∧
      (t.port 0).timer = .stopped ∧ (t.port 0).line.receiver = .off) ∧
    Ran .dozeEnter (given busy 10 [0, 1]) (fun t => Refused (given busy 10 [0, 1]) t (frame 10 [0, 1]) .portBusy) ∧
    Ran .dozeEnter (given hub 10 [0, 1]) (fun t => Refused (given hub 10 [0, 1]) t (frame 10 [0, 1]) .portState) ∧
    Ran .dozeLeave (given (on { Port.reset with state := .doze }) 10 [0, 2]) (fun t =>
      (t.port 0).state = .trimming .quick ∧ (t.port 0).toTrim = [.request ⟨0, .quick, .auto, 1, 1⟩]) ∧
    Ran .dozeLeave (given hub 10 [0, 2]) (fun t => Refused (given hub 10 [0, 2]) t (frame 10 [0, 2]) .portState) := by
  decide +kernel

theorem test_calibrate :
    Ran .calibrate (given hub 11 [0, 1]) (fun t => Refused (given hub 11 [0, 1]) t (frame 11 [0, 1]) .portState) ∧
    Ran .calibrate (given (on { readyPort with claim := .window }) 11 [0, 1]) (fun t =>
      t.link.answers = [⟨0x8B, 9, .calBusy, []⟩]) ∧
    Ran .calibrate (given (held (hub.setPort 3 readyPort) []) 11 [3, 1]) (fun t =>
      t.link.answers = [⟨0x8B, 9, .calBusy, []⟩]) ∧
    Ran .calibrate (given (held (on { readyPort with claim := .queued }) [⟨0, .quick, .auto, 1, 0⟩]) 11 [0, 2]) (fun t =>
      t.link.answers = [⟨0x8B, 9, .merged, []⟩]) ∧
    Ran .calibrate (given (held (on { readyPort with claim := .queued }) [⟨0, .quick, .auto, 1, 0⟩]) 11 [0, 1]) (fun t =>
      t.link.answers = [⟨0x8B, 9, .upgraded, []⟩] ∧ t.trim.queue = [⟨0, .full, .host, 1, 0⟩] ∧
      (t.port 0).fromTrim = [.upgraded 0]) := by decide +kernel
theorem test_calibrate_enters :
    Ran .calibrate (given (held (on readyPort) []) 11 [0, 1]) (fun t =>
      t.link.answers = [⟨0x8B, 9, .ok, []⟩] ∧ t.trim.queue = [⟨0, .full, .host, 1, 1⟩]) ∧
    Ran .calibrate (given (on readyPort) 11 [0, 2]) (fun t =>
      t.trim.holder = some ⟨⟨0, .quick, .host, 1, 1⟩, .granted⟩ ∧ (t.port 0).fromTrim = [.granted 1]) := by decide +kernel
theorem test_addStation :
    Ran .addStation (given (on readyPort) 12 [0, 63, 2, 31]) (fun t =>
      (t.port 0).stations.length = 3 ∧ ((t.port 0).station 63).map Station.threshold = some ⟨.high, 31⟩) ∧
    Ran .addStation (given (on readyPort) 12 [0, 3, 1, 255]) (fun t =>
      ((t.port 0).station 3).map Station.origin = some .default) ∧
    Ran .addStation (given (on readyPort) 12 [0, 1, 1, 0]) (fun t => t.link.answers = [⟨0x8C, 9, .stationExists, []⟩]) ∧
    Ran .addStation (given (on { readyPort with
        stations := (List.range 16).map fun i => Station.create (BitVec.ofNat 6 (i + 1)) none }) 12 [0, 17, 1, 0])
      (fun t => t.link.answers = [⟨0x8C, 9, .tableFull, []⟩]) := by decide +kernel
theorem test_removeStation :
    Ran .removeStation (given (on readyPort) 13 [0, 1]) (fun t => (t.port 0).stations.map Station.addr = [2]) ∧
    Ran .removeStation (given busy 13 [0, 2]) (fun t => t.link.answers = [⟨0x8D, 9, .stationBusy, []⟩]) ∧
    Ran .removeStation (given busy 13 [0, 1]) (fun t => t.link.answers = [⟨0x8D, 9, .stationBusy, []⟩]) ∧
    Ran .removeStation (given (on readyPort) 13 [0, 3]) (fun t =>
      t.link.answers = [⟨0x8D, 9, .unknownStation, []⟩]) := by decide +kernel
theorem test_release_threshold :
    Ran .releaseStation (given (on { readyPort with
        stations := [{ Station.create 1 none with strikes := 2, state := .quarantined }] }) 14 [0, 1]) (fun t =>
      (t.port 0).stations = [Station.create 1 none] ∧
      t.link.reports = [⟨255, .stationState 0 1 .active .released⟩]) ∧
    Ran .releaseStation (given (on readyPort) 14 [0, 1]) (fun t =>
      (t.port 0).stations = readyPort.stations ∧ t.link.reports = []) ∧
    Ran .releaseStation (given (on readyPort) 14 [0, 3]) (fun t => t.link.answers = [⟨0x8E, 9, .unknownStation, []⟩]) ∧
    Ran .setThreshold (given (on readyPort) 15 [0, 1, 2, 31]) (fun t =>
      ((t.port 0).station 1).map Station.threshold = some ⟨.high, 31⟩) ∧
    Ran .setThreshold (given busy 15 [0, 1, 2, 31]) (fun t => t.link.answers = [⟨0x8F, 9, .sweepBusy, []⟩]) ∧
    Ran .setThreshold (given busy 15 [0, 9, 1, 0]) (fun t => t.link.answers = [⟨0x8F, 9, .unknownStation, []⟩]) := by
  decide +kernel

/-- A READY port whose station 1 is quarantined. -/
def shunned : Port :=
  { readyPort with stations := [{ Station.create 1 none with strikes := 2, state := .quarantined }] }

theorem test_sweep :
    Ran .sweep (given (on readyPort) 17 [0, 2, 2]) (fun t =>
      (t.port 0).inFlight = some ⟨.waitingIdle, .probe ⟨2, .high, 0⟩⟩ ∧
      (t.port 0).sweep = some ⟨2, .high, 0, List.replicate 32 .untried, 0, .probe⟩) ∧
    Ran .sweep (given hub 17 [0, 1, 1]) (fun t => t.link.answers = [⟨0x91, 9, .portState, []⟩]) ∧
    Ran .sweep (given (on readyPort) 17 [0, 3, 1]) (fun t => t.link.answers = [⟨0x91, 9, .unknownStation, []⟩]) ∧
    Ran .sweep (given (on shunned) 17 [0, 1, 1]) (fun t => t.link.answers = [⟨0x91, 9, .stationQuarantined, []⟩]) ∧
    Ran .sweep (given busy 17 [0, 1, 1]) (fun t => t.link.answers = [⟨0x91, 9, .sweepBusy, []⟩]) := by decide +kernel

/-- The body of a SUBMIT for port 0: tag 20, attempts absent. -/
def submitBody (kind cls station limit : Byte) : List Byte := [0, 20, 0, kind, cls, station, 0, limit, 1, 2]

/-- The worked SUBMIT of 10.7 is the body of its transaction; a BROADCAST carries station 0. -/
theorem test_submit_body :
    Txn.submitBody ⟨0x0258, .request, .normal, some 21, 2, some 8, [1, 2, 3]⟩ 4 =
      [4, 0x58, 0x02, 1, 1, 21, 2, 8, 1, 2, 3] ∧
    Txn.submitBody ⟨20, .broadcast, .expedited, none, 0, none, []⟩ 7 = [7, 20, 0, 3, 2, 0, 0, 0] := by decide +kernel
theorem test_submittable :
    Txn.Submittable ⟨0x0258, .request, .normal, some 21, 2, some 8, [1, 2, 3]⟩ ∧
    Txn.Submittable ⟨20, .broadcast, .expedited, none, 0, none, []⟩ :=
  ⟨⟨by decide, by decide, by decide, .inl ⟨rfl, ⟨21, rfl, by decide⟩, 8, rfl, by decide⟩⟩,
   ⟨by decide, by decide, by decide, .inr (.inr ⟨rfl, rfl, rfl⟩)⟩⟩
theorem test_submit :
    Ran .submit (given busy 18 (submitBody 1 2 2 48)) (fun t =>
      t.link.answers = [⟨0x92, 9, .ok, []⟩] ∧ (t.port 0).queue.map Txn.tag = [20, 6, 7] ∧
      (t.port 0).queue.map Txn.attempts = [2, 2, 2] ∧ t.cmd.live.length = 5) ∧
    Ran .submit (given (on readyPort) 18 (submitBody 3 1 0 0)) (fun t =>
      (t.port 0).queue = [] ∧ (t.port 0).phase = some .waitingIdle) ∧
    Ran .submit (given hub 18 (submitBody 1 1 1 0)) (fun t => t.link.answers = [⟨0x92, 9, .portState, []⟩]) ∧
    Ran .submit (given (on { readyPort with state := .doze }) 18 (submitBody 1 1 1 0)) (fun t =>
      t.link.answers = [⟨0x92, 9, .portDozing, []⟩]) := by decide +kernel
theorem test_submit_refused :
    Ran .submit { given (on readyPort) 18 (submitBody 1 1 1 0) with cmd := ⟨[⟨20, 1⟩], false⟩ } (fun t =>
      t.link.answers = [⟨0x92, 9, .duplicateTag, []⟩]) ∧
    Ran .submit (given (on readyPort) 18 (submitBody 2 1 3 0)) (fun t =>
      t.link.answers = [⟨0x92, 9, .unknownStation, []⟩]) ∧
    Ran .submit (given (on shunned) 18 (submitBody 2 1 1 0)) (fun t =>
      t.link.answers = [⟨0x92, 9, .stationQuarantined, []⟩]) ∧
    Ran .submit (given (on { readyPort with queue := List.replicate 16 (sample 6 .post 1) }) 18 (submitBody 2 1 1 0))
      (fun t => t.link.answers = [⟨0x92, 9, .queueFull, []⟩]) := by decide +kernel
theorem test_cancel :
    Ran .cancel (given busy 19 [7, 0]) (fun t => (t.port 0).queue.map Txn.tag = [6] ∧
      t.link.reports = [⟨255, .txnDone 7 0 .cancelled 0 none⟩] ∧ t.cmd.live.length = 3) ∧
    Ran .cancel (given busy 19 [5, 0]) (fun t => t.link.answers = [⟨0x93, 9, .inFlight, []⟩]) ∧
    Ran .cancel (given busy 19 [9, 0]) (fun t => t.link.answers = [⟨0x93, 9, .notFound, []⟩]) := by decide +kernel

/-! ### The drop line -/

theorem test_receiver :
    (on readyPort).Hears 0 ∧
    Ran (.activeSample 0) (on { readyPort with line := { line with spoilWatch := some 3 } }) (fun t =>
      (t.port 0).spoils = [3] ∧ (t.port 0).line.spoilWatch = none ∧ (t.port 0).line.restCount = 0) ∧
    Ran (.restLevelSample 0) (on { readyPort with line := { line with receiver := .waitRest } }) (fun t =>
      (t.port 0).line.receiver = .hunting) ∧
    Ran (.startBitAccepted 0 true) (on { readyPort with line := { line with reply := .running 10 } }) (fun t =>
      (t.port 0).line.reply = .held 10 true ∧ (t.port 0).line.receiver = .inCharacter) ∧
    after (.startInTurnaround 0) (on readyPort) = on readyPort ∧
    Ran (.characterReceived 0 ⟨0xC1, false, true, true⟩) (on { readyPort with line := { line with
        receiver := .inCharacter, reply := .held 10 false } }) (fun t =>
      (t.port 0).line.receiver = .waitRest ∧ (t.port 0).line.reply = .running 10 ∧
      (t.port 0).line.assembler = .hunt) ∧
    after (.activeSample 0) hub = hub := by decide +kernel

/-- A frame record of station 2 that awaits its COUNT. -/
def opening (kind : FrameKind) (noisy : Nat) : FrameRec := ⟨2, kind, none, [], none, none, false, noisy⟩

/-- A character added to the frame in assembly, at the last payload byte and before it (R9). -/
theorem test_character_added :
    Ran (.characterReceived 0 ⟨7, false, true, false⟩) (on { readyPort with line := { line with
        receiver := .inCharacter, assembler := .assembling .count (opening .post 0) } })
      (fun t => (t.port 0).line.assembler = .assembling .payload { opening .post 1 with count := some 7 } ∧
        (t.port 0).line.gapRunning = true) ∧
    Ran (.characterReceived 0 ⟨9, false, false, true⟩) (on { readyPort with line := { line with
        receiver := .inCharacter, assembler := .assembling .payload ⟨1, .post, some 2, [8], none, none, false, 0⟩ } })
      (fun t => (t.port 0).line.assembler = .assembling .checkLow ⟨1, .post, some 2, [8, 9], none, none, true, 0⟩ ∧
        (t.port 0).line.receiver = .waitRest) ∧
    (opening .post 0).grown .count 49 = none ∧
    ((opening .post 0).grown .count 0).map Prod.fst = some .checkLow := by
  decide +kernel

/-- A line in TURNAROUND. -/
def turning : LineIf := { line with turnaround := some 3 }

theorem test_start_in_turnaround :
    Ran (.startInTurnaround 0) (on (flying .turnaround (.txn (request 1)) turning)) (fun t =>
      FailsAttempt (on (flying .turnaround (.txn (request 1)) turning)) t 0
        ((flying .turnaround (.txn (request 1)) turning).startTaken false) (request 1) .badReply ∧
      (t.port 0).phase = some .waitingIdle) ∧
    Ran (.startBitAccepted 0 true) (on (flying .turnaround (.txn (request 2)) turning)) (fun t =>
      FailsAttempt (on (flying .turnaround (.txn (request 2)) turning)) t 0
        ((flying .turnaround (.txn (request 2)) turning).startTaken false) (request 2) .badReply ∧
      t.link.reports = [⟨255, .txnDone 5 0 .badReply 2 none⟩, ⟨0, .stationState 0 1 .suspect .failures⟩]) ∧
    Ran (.startInTurnaround 0) (on (flying .turnaround (.probe probe) turning)) (fun t =>
      ProbeEnds (on (flying .turnaround (.probe probe) turning)) t 0
        ((flying .turnaround (.probe probe) turning).startTaken false) (sweepAt 3) 3 .fail) := by decide +kernel
theorem test_window_timers :
    Ran (.turnaroundExpiry 0) (on (flying .turnaround (.txn (request 1)) turning)) (fun t =>
      (t.port 0).phase = some .awaiting ∧ (t.port 0).line.reply = .running 10) ∧
    Ran (.replyTimeout 0) (on (flying .awaiting (.txn (request 1)) { line with reply := .running 10 })) (fun t =>
      (t.port 0).lateReply = some 1 ∧ (t.port 0).phase = some .waitingIdle ∧
      (t.port 0).counters.attemptsFailed = 1) ∧
    Ran (.replyTimeout 0) (on (flying .awaiting (.probe probe) { line with reply := .running 10 })) (fun t =>
      (t.port 0).lateReply = some 1 ∧ ((t.port 0).sweep.map Sweep.next) = some 4) := by decide +kernel

/-- The head of a REPLY of station `a`. -/
def head (a : Addr) : RxChar := ⟨headByte .reply a, true, false, false⟩

/-- Port 0 in AWAITING on an idle line, its reply timer running, and the commands that wait. -/
def awaitingThen (used : Nat) (waits : List Instr) : State :=
  { on (flying .awaiting (.txn (request used)) { line with reply := .running 10, restCount := 14 }) with
    pending := waits }

/-- The state after `n` steps. -/
def stepped : Nat → State → State
  | 0, s => s
  | n + 1, s => match step s with
    | .next t => stepped n t
    | .fault _ => s
    | .refused _ => s

/-- Section 5.7, steps 1 to 5: the expiry, the trim unit's grant, station 1's start bit before the retry begins, its
late head, and the retry when the line is idle again. -/
theorem test_late_reply_before_retry :
    let late := stepped 4 (awaitingThen 1
      [.replyTimeout 0, .grant 0, .startBitAccepted 0 false, .characterReceived 0 (head 1), .lineBecomesIdle 0])
    ((late.port 0).phase = some .waitingIdle ∧ (late.port 0).lateReply = some 1 ∧
      ((late.port 0).station 1).map Station.late = some 1 ∧ (late.port 0).line.stuck = .counting) ∧
    let retried := stepped 1 late
    (retried.port 0).phase = some .sending ∧ (retried.port 0).lateReply = none := by decide +kernel

/-- With no start bit first the retry begins at the expiry (R64); after a final NO_REPLY too the record outlives a start
bit taken first, whatever work is taken next (R88). -/
theorem test_retry_begins_at_once :
    Ran (.replyTimeout 0) (awaitingThen 1 []) (fun t =>
      (t.port 0).phase = some .sending ∧ (t.port 0).lateReply = none) ∧
    Ran (.replyTimeout 0) (awaitingThen 1 [.startBitAccepted 1 false, .collision 0, .characterReceived 0 (head 1)])
      (fun t => (t.port 0).phase = some .sending ∧ (t.port 0).lateReply = none) ∧
    Ran (.replyTimeout 0) (awaitingThen 2 [.startBitAccepted 0 false]) (fun t =>
      t.link.reports.length = 2 ∧ (t.port 0).lateReply = some 1 ∧
      (t.port 0).inFlight = some ⟨.waitingIdle, .probe probe⟩) := by
  decide +kernel

/-- Both sides of the choice that a reply timeout makes. -/
theorem test_at_timeout :
    (awaitingThen 1 [.grant 0, .characterReceived 0 (head 1)]).AtTimeout 0
      ((awaitingThen 1 []).port 0).sampled ∧
    (awaitingThen 1 [.collision 0, .characterReceived 0 (head 1)]).AtTimeout 0 ((awaitingThen 1 []).port 0) := by
  refine ⟨.inl ⟨⟨[.grant 0], _, [], rfl, .inr ⟨head 1, rfl⟩, by decide +kernel⟩, rfl⟩, .inr ⟨?_, rfl⟩⟩
  exact fun h => absurd ((startFollows_iff 0 _).2 h) (by decide +kernel)

theorem test_idle_line :
    Ran (.lineBecomesIdle 0) (on (flying .recovering (.txn (request 1)) { line with receiver := .waitRest })) (fun t =>
      (t.port 0).inFlight = some ⟨.sending, .txn (request 2)⟩ ∧ (t.port 0).line.driver = .driving ∧
      (t.port 0).line.sending = frameChars .request 1 [0x10, 0x20] ∧ (t.port 0).selected = ⟨.highZ, 0⟩) ∧
    Ran (.lineBecomesIdle 0) (on (flying .waitingIdle (.probe probe) line)) (fun t =>
      (t.port 0).line.sending = frameChars .probe 1 (probePattern 3)) ∧
    Ran (.lineBecomesIdle 0) (on readyPort) (fun t => (t.port 0).lineIdle = true ∧
      (t.port 0).line.stuck = .zero) := by decide +kernel

/-- A port inside a character, with no frame in assembly. -/
def hearing (q : Port) : Port := { q with line := { q.line with receiver := .inCharacter } }

/-- A port whose last REQUEST to station 1 timed out, with `strikes` against station 2. -/
def late (strikes : Nat) : Port :=
  hearing { readyPort with
    lateReply := some 1
    stations := [Station.create 1 none, { Station.create 2 none with strikes := strikes }] }

theorem test_outside_heads :
    Ran (.characterReceived 0 (head 1)) (on (hearing readyPort)) (fun t => (t.port 0).counters.strays = 1) ∧
    Ran (.characterReceived 0 ⟨headByte .probe 1, true, false, false⟩) (on (late 0)) (fun t =>
      (t.port 0).counters.strays = 1) ∧
    Ran (.characterReceived 0 (head 3)) (on (late 0)) (fun t => (t.port 0).counters.strays = 1) ∧
    Ran (.characterReceived 0 (head 1)) (on (late 0)) (fun t =>
      ((t.port 0).station 1).map Station.late = some 1 ∧ (t.port 0).lateReply = some 1) ∧
    Ran (.characterReceived 0 (head 2)) (on (late 0)) (fun t =>
      ((t.port 0).station 2).map Station.strikes = some 1 ∧ t.link.reports = []) ∧
    Ran (.characterReceived 0 (head 2)) (on (late 2)) (fun t =>
      ((t.port 0).station 2).map Station.strikes = some 2 ∧ t.link.reports = []) := by decide +kernel

/-- `late 1` with work of station 2 in flight, queued and swept. -/
def shunning : Port :=
  { late 1 with
    inFlight := some ⟨.waitingIdle, .txn ⟨sample 5 .request 2, 2, 1, none, none⟩⟩
    queue := [sample 6 .post 2, sample 7 .request 1]
    sweep := some ⟨2, .low, 0, List.replicate 32 .untried, 0, .transaction⟩ }

theorem test_quarantine :
    Ran (.characterReceived 0 (head 2)) { on shunning with cmd := ⟨[⟨5, 0⟩, ⟨6, 0⟩, ⟨7, 0⟩], false⟩ } (fun t =>
      t.link.reports = [⟨255, .stationState 0 2 .quarantined .strike⟩,
        ⟨0, .txnDone 5 0 .stationQuarantined 1 none⟩, ⟨1, .txnDone 6 0 .stationQuarantined 0 none⟩,
        ⟨2, .sweepDone 0 2 .low (.abandoned .stationQuarantined) (List.replicate 32 .untried)⟩] ∧
      t.cmd.live = [⟨7, 0⟩] ∧ (t.port 0).sweep = none ∧
      (t.port 0).inFlight = some ⟨.waitingIdle, .txn ⟨sample 7 .request 1, 2, 0, none, none⟩⟩) := by decide +kernel
theorem test_window_heads :
    Ran (.characterReceived 0 (head 1)) (on (hearing (flying .awaiting (.txn (request 1)) line))) (fun t =>
      (t.port 0).phase = some .receiving) ∧
    Ran (.characterReceived 0 (head 1)) (on (hearing (flying .awaiting (.probe probe) line))) (fun t =>
      (t.port 0).phase = some .receiving) ∧
    Ran (.characterReceived 0 (head 2)) (on (hearing (flying .awaiting (.txn (request 1)) line))) (fun t =>
      ((t.port 0).station 2).map Station.strikes = some 1 ∧ (t.port 0).phase = some .waitingIdle) ∧
    Ran (.characterReceived 0 ⟨headByte .post 1, true, false, false⟩)
        (on (hearing (flying .awaiting (.probe probe) line))) (fun t =>
      (t.port 0).counters.strays = 1 ∧ (t.port 0).sweep.map Sweep.next = some 4) ∧
    Ran (.characterReceived 0 (head 3)) (on (hearing (flying .awaiting (.txn (request 2)) line))) (fun t =>
      (t.port 0).counters.strays = 1 ∧ t.link.reports.length = 2) := by decide +kernel

/-- `hearing` in AWAITING, with one strike against station 2, work of it queued, and a sweep on it or not. -/
def striking (w : Work) (swept : Addr) : Port :=
  { hearing (flying .awaiting w line) with
    stations := [Station.create 1 none, { Station.create 2 none with strikes := 1 }]
    queue := [sample 6 .post 2, sample 7 .post 1]
    sweep := some { sweepAt 3 with station := swept } }

/-- The second strike inside the reply window: the quarantine's notices first, then the end of the exchange (R45, R70,
R142). -/
theorem test_second_strike_in_window :
    (on (striking (.txn (request 2)) 2)).RoomFor
      (((striking (.txn (request 2)) 2).headOpened (head 2)).quarantineNotices 0 2).length ∧
    Ran (.characterReceived 0 (head 2)) (on (striking (.txn (request 2)) 2)) (fun t =>
      t.link.reports = [⟨255, .stationState 0 2 .quarantined .strike⟩,
        ⟨0, .txnDone 6 0 .stationQuarantined 0 none⟩,
        ⟨1, .sweepDone 0 2 .low (.abandoned .stationQuarantined) (passAt [4, 5, 6])⟩,
        ⟨2, .txnDone 5 0 .badReply 2 none⟩, ⟨3, .stationState 0 1 .suspect .failures⟩] ∧
      (t.port 0).inFlight.isSome = true ∧ (t.port 0).queue = []) ∧
    Ran (.characterReceived 0 (head 2)) (on (striking (.probe probe) 1)) (fun t =>
      t.link.reports.length = 2 ∧ (t.port 0).sweep.map Sweep.next = some 4) := by decide +kernel

/-- An interrupted frame's noise is charged before the head that interrupts it is judged, in AWAITING and outside it
(R10, R94). -/
theorem test_head_interrupts :
    Ran (.characterReceived 0 (head 1)) (on { hearing (flying .awaiting (.txn (request 1)) line) with
        line := { line with receiver := .inCharacter, assembler := .assembling .count (opening .reply 3) } }) (fun t =>
      (t.port 0).phase = some .receiving ∧ ((t.port 0).station 2).map Station.noisy = some 3) ∧
    Ran (.characterReceived 0 (head 1)) (on { late 0 with
        line := { line with receiver := .inCharacter, assembler := .assembling .count (opening .reply 3) } }) (fun t =>
      ((t.port 0).station 1).map Station.late = some 1 ∧ ((t.port 0).station 2).map Station.noisy = some 3) ∧
    (late 0).OutsideWindow := by
  refine ⟨by decide +kernel, by decide +kernel, fun f h => ?_⟩
  exact nomatch h

/-- A held reply timer past its timeout expires as the unmarked character ends, in HUNT and in a frame (R14). -/
theorem test_overdue :
    Ran (.characterReceived 0 ⟨7, false, false, false⟩) (on (hearing (flying .awaiting (.txn (request 2))
        { line with reply := .held 10 true }))) (fun t =>
      (t.port 0).lateReply = some 1 ∧
      t.link.reports = [⟨255, .txnDone 5 0 .noReply 2 none⟩, ⟨0, .stationState 0 1 .suspect .failures⟩]) ∧
    Ran (.characterReceived 0 ⟨7, false, false, false⟩) (on (hearing (flying .awaiting (.probe probe)
        { line with reply := .held 10 true, assembler := .assembling .count (opening .post 0) }))) (fun t =>
      (t.port 0).lateReply = some 1 ∧ (t.port 0).sweep.map Sweep.next = some 4 ∧
      (t.port 0).line.assembler = .assembling .payload { opening .post 0 with count := some 7 }) := by
  decide +kernel

/-- The characters of a REPLY of station 1. -/
def replyOf (payload : List Byte) : List Instr :=
  (frameChars .reply 1 payload).map fun ch => .characterReceived 0 ⟨ch.data, ch.mark, false, false⟩

theorem test_good_reply :
    Completes (on (flying .awaiting (.txn (request 1)) { line with reply := .running 10 }))
      (ran (replyOf [1, 2, 3, 4]) (on (flying .awaiting (.txn (request 1)) { line with reply := .running 10 }))) 0
      { (flying .awaiting (.txn (request 1)) line).sampled with line := { line.switchOn with
          receiver := .hunting, lastSample := some .rest, stuck := .zero } }
      (sample 5 .request 1) .done 1 (some [1, 2, 3, 4]) ∧
    (ran (replyOf []) (on (flying .awaiting (.txn (request 1)) line))).link.reports =
      [⟨255, .txnDone 5 0 .done 1 (some [])⟩] ∧
    (ran (replyOf [1, 2, 3, 4, 5]) (on (flying .awaiting (.txn (request 1)) line))).link.reports = [] := by
  decide +kernel

/-- A frame in assembly that lacks its second check character: a REPLY of station 1 with one payload byte. -/
def almost (noisy : Nat) : FrameRec :=
  ⟨1, .reply, some 1, [7], some (lowByte (checkOf [0xC1, 1, 7])), none, false, noisy⟩

/-- A port in RECEIVING, inside a character, at `w`. -/
def receiving (work : Work) (w : Awaited) (r : FrameRec) : Port :=
  hearing (flying .receiving work { line with assembler := .assembling w r })

/-- The last character of `almost`. -/
def last : Byte := highByte (checkOf [0xC1, 1, 7])

/-- Unmarked characters in HUNT, added to a frame, and ending one: the three ways the relation names. -/
theorem test_takes_unmarked :
    (on (hearing readyPort)).TakesUnmarked 0 ⟨7, false, false, false⟩
      (((on (hearing readyPort)).port 0).charEnded ⟨7, false, false, false⟩) ∧
    (on (receiving (.probe probe) .checkLow (opening .reply 0))).TakesUnmarked 0 ⟨7, false, false, false⟩
      (((on (receiving (.probe probe) .checkLow (opening .reply 0))).port 0).charAdded ⟨7, false, false, false⟩ .checkHigh
        { opening .reply 0 with checkLo := some 7 }) ∧
    (on (receiving (.probe probe) .checkHigh (opening .reply 0))).TakesUnmarked 0 ⟨7, false, false, false⟩
      ((((on (receiving (.probe probe) .checkHigh (opening .reply 0))).port 0).charEnded
        ⟨7, false, false, false⟩).frameEnded { opening .reply 0 with checkHi := some 7 }) :=
  ⟨⟨by decide +kernel, rfl, .inl ⟨by decide +kernel, rfl⟩⟩,
   ⟨by decide +kernel, rfl, .inr (.inl ⟨.checkLow, opening .reply 0, .checkHigh, { opening .reply 0 with checkLo := some 7 },
      by decide +kernel, by decide +kernel, rfl⟩)⟩,
   ⟨by decide +kernel, rfl, .inr (.inr ⟨{ opening .reply 0 with checkHi := some 7 }, false,
      .inl ⟨opening .reply 0, _, rfl, by decide +kernel, rfl, by decide +kernel, by decide +kernel, rfl,
        by decide +kernel⟩⟩)⟩⟩

theorem test_frame_ends :
    Ran (.characterReceived 0 ⟨last, false, true, false⟩) (on (receiving (.txn (request 1)) .checkHigh (almost 2)))
      (fun t => t.link.reports = [⟨255, .txnDone 5 0 .done 1 (some [7])⟩] ∧
        ((t.port 0).station 1).map Station.noisy = some 3) ∧
    Ran (.characterReceived 0 ⟨last + 1, false, false, false⟩)
        (on (receiving (.txn (request 1)) .checkHigh (almost 0)))
      (fun t => (t.port 0).phase = some .waitingIdle ∧ t.link.reports = []) ∧
    Ran (.characterReceived 0 ⟨49, false, false, false⟩) (on (receiving (.txn (request 1)) .count (almost 0)))
      (fun t => (t.port 0).phase = some .waitingIdle ∧ (t.port 0).line.assembler = .hunt) ∧
    Ran (.characterReceived 0 ⟨48, false, false, false⟩) (on (receiving (.txn (request 1)) .count (almost 0)))
      (fun t => (t.port 0).phase = some .waitingIdle ∧ (t.port 0).line.assembler ≠ .hunt) ∧
    Ran (.characterGapExpiry 0) (on { receiving (.txn (request 2)) .payload (almost 5) with
        line := { (receiving (.txn (request 2)) .payload (almost 5)).line with gapRunning := true } })
      (fun t => (t.port 0).line.assembler = .hunt ∧ t.link.reports.length = 2 ∧
        ((t.port 0).station 1).map Station.noisy = some 5) := by decide +kernel
theorem test_echo :
    Ran (.characterReceived 0 ⟨highByte (checkOf (0xC1 :: 16 :: probePattern 3)), false, false, false⟩)
        (on (receiving (.probe probe) .checkHigh ⟨1, .reply, some 16, probePattern 3,
          some (lowByte (checkOf (0xC1 :: 16 :: probePattern 3))), none, false, 0⟩))
      (fun t => (t.port 0).sweep.map (fun w => (w.next, w.map[3]?)) = some (4, some .pass)) ∧
    Ran (.characterReceived 0 ⟨last, false, false, false⟩) (on (receiving (.probe probe) .checkHigh (almost 0)))
      (fun t => (t.port 0).sweep.map (fun w => (w.next, w.map[3]?)) = some (4, some .fail)) ∧
    Ran (.characterGapExpiry 0) (on { readyPort with line := { line with
        assembler := .assembling .count (almost 1), gapRunning := true } })
      (fun t => (t.port 0).line.assembler = .hunt ∧ ((t.port 0).station 1).map Station.noisy = some 1) := by
  decide +kernel

/-- An interrupted reply fails its attempt, or ends its probe FAIL, before the head that interrupted it counts as a stray
frame (R74, R90, R144). -/
theorem test_interrupted :
    Ran (.characterReceived 0 (head 1)) (on (receiving (.txn (request 2)) .payload (almost 4))) (fun t =>
      FailsAttempt (on (receiving (.txn (request 2)) .payload (almost 4))) t 0
        ((receiving (.txn (request 2)) .payload (almost 4)).headOpened (head 1)).strayCounted (request 2) .badReply ∧
      t.link.reports.length = 2) ∧
    Ran (.characterReceived 0 (head 2)) (on (receiving (.probe probe) .payload (almost 4))) (fun t =>
      (t.port 0).sweep.map (fun w => (w.next, w.map[3]?)) = some (4, some .fail) ∧ (t.port 0).counters.strays = 1) ∧
    Ran (.characterReceived 0 (head 1)) (on (receiving (.txn (request 1)) .payload (almost 4))) (fun t =>
      (t.port 0).phase = some .waitingIdle ∧ (t.port 0).counters.strays = 1 ∧
      ((t.port 0).station 1).map Station.noisy = some 4 ∧
      (t.port 0).line.assembler = .assembling .count (FrameRec.opened (head 1))) := by decide +kernel

/-- The line while the hub's frame is on it. -/
def driving : LineIf := { line with driver := .driving }

theorem test_frame_sent :
    Ran (.frameSent 0) (on (flying .sending (.txn ⟨sample 5 .request 2, 2, 1, none, none⟩) driving)) (fun t =>
      (t.port 0).phase = some .turnaround ∧ (t.port 0).line.threshold = ⟨.high, 7⟩ ∧
      (t.port 0).line.turnaround = some 3 ∧ (t.port 0).counters.framesSent = 1) ∧
    Ran (.frameSent 0) (on (flying .sending (.probe probe) driving)) (fun t =>
      (t.port 0).line.threshold = ⟨.low, 3⟩) ∧
    Ran (.frameSent 0) (on (flying .sending (.txn ⟨sample 5 .post 1, 2, 2, none, none⟩) driving)) (fun t =>
      t.link.reports = [⟨255, .txnDone 5 0 .done 2 none⟩]) := by decide +kernel
theorem test_collision :
    Ran (.collision 0) (on { flying .sending (.txn (request 1)) driving with collisionRun := 6 }) (fun t =>
      (t.port 0).phase = some .recovering ∧ (t.port 0).collisionRun = 7 ∧
      (t.port 0).line.receiver = .waitRest) ∧
    Ran (.collision 0) (on (flying .sending (.probe probe) driving)) (fun t =>
      (t.port 0).sweep.map Sweep.next = some 4 ∧ (t.port 0).counters.collisions = 1) ∧
    Ran (.collision 0) (on { flying .sending (.txn (request 2)) driving with collisionRun := 7 }) (fun t =>
      (t.port 0).state = .faulted .contention ∧ (t.port 0).collisionRun = 8 ∧
      (t.port 0).counters.attemptsFailed = 0 ∧ (t.port 0).line.driver = .disabled ∧
      t.link.reports = [⟨255, .portState 0 (.faulted .contention) .contention⟩,
        ⟨0, .txnDone 5 0 .portFaulted 2 none⟩,
        ⟨1, .sweepDone 0 1 .low (.abandoned .portFaulted) (passAt [4, 5, 6])⟩]) := by decide +kernel
theorem test_stuck :
    (on busyPort).RoomFor 5 ∧
    Ran (.stuckLineExpiry 0) (on { busyPort with inFlight := none }) (fun t =>
      (t.port 0).state = .faulted .stuck ∧ (t.port 0).toTrim = [.withdraw 0] ∧ t.link.reports.length = 4) ∧
    after (.stuckLineExpiry 0) (on busyPort) = on busyPort := by decide +kernel

/-! ### Work, stations and sweeps -/

theorem test_next_work :
    ({ readyPort with claim := .granted, queue := [sample 6 .post 1] } : Port).nextWork.claim = .window ∧
    ({ readyPort with sweep := some (sweepAt 3), queue := [sample 6 .post 1] } : Port).nextWork.phase =
      some .waitingIdle ∧
    ({ readyPort with sweep := some { sweepAt 3 with last := .transaction }, queue := [sample 6 .post 1] } :
      Port).nextWork.inFlight = some ⟨.waitingIdle, .probe probe⟩ ∧
    ({ readyPort with
        queue := [sample 6 .request 1], stations := [{ Station.create 1 none with state := .silent }]
        line := { line with restCount := 14 } } : Port).nextWork.inFlight =
      some ⟨.sending, .txn ⟨sample 6 .request 1, 1, 1, none, none⟩⟩ ∧
    readyPort.nextWork = readyPort := by decide +kernel
theorem test_class_order :
    insertTxn { sample 9 .post 1 with cls := .expedited }
        [{ sample 1 .post 1 with cls := .expedited }, sample 2 .post 1] =
      [{ sample 1 .post 1 with cls := .expedited }, { sample 9 .post 1 with cls := .expedited }, sample 2 .post 1] ∧
    insertTxn (sample 9 .post 1) [{ sample 1 .post 1 with cls := .expedited }] =
      [{ sample 1 .post 1 with cls := .expedited }, sample 9 .post 1] := by decide +kernel
theorem test_station_complete :
    ({ Station.create 1 none with failureRun := 2, state := .suspect }.complete .request .noReply).state = .silent ∧
    ({ Station.create 1 none with failureRun := 255, state := .silent }.complete .request .badReply).failureRun = 255 ∧
    ((Station.create 1 none).complete .post .collided).failureRun = 0 ∧
    ({ Station.create 1 none with failureRun := 9, state := .silent }.complete .request .done).state = .active ∧
    (Station.create 1 none).complete .request .cancelled = Station.create 1 none := by decide +kernel

/-- A port whose last probe of a sweep waits for its reply; `codes` have passed. -/
def lastProbe (codes : List Nat) : Port :=
  { flying .awaiting (.probe ⟨1, .low, 31⟩) { line with reply := .running 10 } with
    sweep := some ⟨1, .low, 31, passAt codes, 0, .probe⟩ }

theorem test_sweep_chooses :
    Ran (.replyTimeout 0) (on (lastProbe [4, 5, 6])) (fun t =>
      ((t.port 0).station 1).map (fun e => (e.threshold, e.origin, e.lastWindow)) =
        some (⟨.low, 5⟩, .swept, some ⟨4, 3⟩) ∧ (t.port 0).sweep = none ∧
      t.link.reports = [⟨255, .sweepDone 0 1 .low (.done 5 4 3) (passAt [4, 5, 6])⟩]) ∧
    Ran (.replyTimeout 0) (on (lastProbe [4, 5])) (fun t =>
      ((t.port 0).station 1) = some (Station.create 1 none) ∧
      t.link.reports = [⟨255, .sweepDone 0 1 .low (.noWindow (some ⟨4, 2⟩)) (passAt [4, 5])⟩]) := by decide +kernel
/-- The last probe of a sweep in a given phase and line, codes 4 and 5 passed and 6 to be decided. -/
def lastIn (ph : Phase) (l : LineIf) : Port :=
  { flying ph (.probe ⟨1, .low, 6⟩) l with sweep := some ⟨1, .low, 31, passAt [4, 5], 0, .probe⟩ }

/-- A clean echo of pattern 6 lacks its last character. -/
def echoing : LineIf :=
  { line with receiver := .inCharacter, assembler := .assembling .checkHigh ⟨1, .reply, some 16, probePattern 6,
      some (lowByte (checkOf (0xC1 :: 16 :: probePattern 6))), none, false, 0⟩ }

/-- SWEEP_DONE with the window 4 to 6, and without. -/
def sweptNotices (done : Bool) : List Numbered :=
  [⟨255, if done then .sweepDone 0 1 .low (.done 5 4 3) (passAt [4, 5, 6])
    else .sweepDone 0 1 .low (.noWindow (some ⟨4, 2⟩)) (passAt [4, 5])⟩]

/-- Every event that can end the last probe makes the sweep choose (R145, R148). -/
theorem test_last_probe_ends :
    Ran (.characterReceived 0 ⟨highByte (checkOf (0xC1 :: 16 :: probePattern 6)), false, false, false⟩)
        (on (lastIn .receiving echoing)) (fun t =>
      t.link.reports = sweptNotices true ∧ ((t.port 0).station 1).map Station.threshold = some ⟨.low, 5⟩) ∧
    Ran (.characterGapExpiry 0) (on (lastIn .receiving { echoing with gapRunning := true })) (fun t =>
      t.link.reports = sweptNotices false ∧ (t.port 0).sweep = none) ∧
    Ran (.startInTurnaround 0) (on (lastIn .turnaround turning)) (fun t => t.link.reports = sweptNotices false) ∧
    Ran (.characterReceived 0 ⟨headByte .post 1, true, false, false⟩) (on (hearing (lastIn .awaiting line))) (fun t =>
      t.link.reports = sweptNotices false ∧ (t.port 0).counters.strays = 1) ∧
    Ran (.collision 0) (on (lastIn .sending driving)) (fun t => t.link.reports = sweptNotices false) ∧
    Ran (.characterReceived 0 (head 1)) (on (lastIn .receiving echoing)) (fun t =>
      t.link.reports = sweptNotices false ∧ (t.port 0).counters.strays = 1) := by decide +kernel

/-- The last probe in AWAITING, with `strikes` against station 2. -/
def lastStruck (strikes : Nat) : Port :=
  { hearing (lastIn .awaiting line) with
    stations := [Station.create 1 none, { Station.create 2 none with strikes := strikes }]
    queue := [sample 6 .post 2] }

/-- A start in the turnaround, an overdue held timer, and a REPLY of another station, with its strike, quarantine or
stray frame, end the last probe too (R14, R44, R70, R89, R142). -/
theorem test_last_probe_ends_otherwise :
    Ran (.startBitAccepted 0 true) (on (lastIn .turnaround turning)) (fun t => t.link.reports = sweptNotices false) ∧
    Ran (.characterReceived 0 ⟨7, false, false, false⟩) (on (lastIn .awaiting { line with
        receiver := .inCharacter, reply := .held 10 true })) (fun t =>
      t.link.reports = sweptNotices false ∧ (t.port 0).lateReply = some 1) ∧
    Ran (.characterReceived 0 (head 3)) (on (lastStruck 0)) (fun t =>
      t.link.reports = sweptNotices false ∧ (t.port 0).counters.strays = 1) ∧
    Ran (.characterReceived 0 (head 2)) (on (lastStruck 0)) (fun t =>
      t.link.reports = sweptNotices false ∧ ((t.port 0).station 2).map Station.strikes = some 1) ∧
    Ran (.characterReceived 0 (head 2)) (on (lastStruck 2)) (fun t => t.link.reports = sweptNotices false) ∧
    Ran (.characterReceived 0 (head 2)) (on (lastStruck 1)) (fun t =>
      t.link.reports = [⟨255, .stationState 0 2 .quarantined .strike⟩,
        ⟨0, .txnDone 6 0 .stationQuarantined 0 none⟩,
        ⟨1, .sweepDone 0 1 .low (.noWindow (some ⟨4, 2⟩)) (passAt [4, 5])⟩] ∧ (t.port 0).sweep = none) := by
  decide +kernel
theorem test_termination :
    ({ readyPort with profile := ⟨some 2, some 4, some 6, false⟩ } : Port).selectTermination = ⟨.park, 2⟩ ∧
    ({ flying .awaiting (.probe probe) line with profile := ⟨some 2, some 4, some 6, false⟩ } :
      Port).selectTermination = ⟨.listen, 6⟩ ∧
    ({ flying .receiving (.probe probe) line with profile := ⟨some 2, some 4, none, true⟩ } :
      Port).selectTermination = ⟨.nominal, 4⟩ ∧
    ({ readyPort with claim := .window, profile := ⟨some 2, some 4, some 6, true⟩ } : Port).selectTermination =
      ⟨.park, 2⟩ ∧
    ({ readyPort with state := .faulted .stuck, profile := ⟨some 2, some 4, some 6, true⟩ } :
      Port).selectTermination = ⟨.highZ, 0⟩ := by decide +kernel

/-! ### Calibration -/

/-- Who writes the interval: SET_DRIFT and the resets (R131, R161); every other command leaves it. -/
theorem test_interval_written :
    Ran (.hubResetCarriedOut 0) { hub with cmd := ⟨[], true⟩, trim := { hub.trim with dT := 500, interval := 4444 } }
      (fun t => t.trim.interval = 60000 ∧ t.trim.dT = 0) ∧
    Ran .identify { given hub 1 [] with trim := { hub.trim with dT := 500, interval := 4444 } }
      (fun t => t.trim.interval = 4444 ∧ t.trim.dT = 500) := by decide +kernel

theorem test_new_interval :
    Ran (.newInterval 0) (on { readyPort with newIntervals := [499, 7] }) (fun t =>
      (t.port 0).timer = .running 499 ∧ (t.port 0).interval = 499 ∧ (t.port 0).newIntervals = [7]) ∧
    Ran (.newInterval 0) (on { readyPort with newIntervals := [500] }) (fun t => (t.port 0).timer = .running 500) ∧
    Ran (.newInterval 0) (on { readyPort with newIntervals := [100], timer := .expired }) (fun t =>
      (t.port 0).timer = .expired) := by decide +kernel
theorem test_expiry_and_request :
    Ran (.quickCalExpiry 0) ((on { readyPort with claimNumber := 255 }).setPort 7 readyPort) (fun t =>
      (t.port 0).timer = .expired ∧ (t.port 0).toTrim = [.request ⟨0, .quick, .auto, 1, 0⟩] ∧
      (t.port 7).timer = .running 0) ∧
    Ran (.quickCalExpiry 0) (on { readyPort with claim := .granted }) (fun t =>
      (t.port 0).timer = .expired ∧ (t.port 0).toTrim = []) ∧
    Ran (.quickCalExpiry 0) ((on { readyPort with timer := .running 499 }).setPort 7 readyPort) (fun t =>
      (t.port 7).timer = .running 1) ∧
    Ran (.quickCalExpiry 0) ((on { readyPort with timer := .running 100 }).setPort 7 readyPort) (fun t =>
      (t.port 7).timer = .running 400) ∧
    after (.quickCalExpiry 0) (on { readyPort with timer := .expired }) = on { readyPort with timer := .expired } ∧
    Ran (.calibrationRequest 0) (on { readyPort with toTrim := [.request ⟨0, .quick, .auto, 1, 0⟩] }) (fun t =>
      t.trim.holder = some ⟨⟨0, .quick, .auto, 1, 0⟩, .granted⟩ ∧ (t.port 0).fromTrim = [.granted 0]) ∧
    Ran (.calibrationRequest 0) (held (on { readyPort with toTrim := [.request ⟨0, .quick, .auto, 1, 0⟩] })
        [⟨1, .full, .auto, 1, 1⟩]) (fun t =>
      t.trim.queue = [⟨1, .full, .auto, 1, 1⟩, ⟨0, .quick, .auto, 1, 0⟩]) := by decide +kernel

/-- Port `p` of `s` with its timer at `ms`. -/
def timed (p : PortId) (ms : Nat) (s : State) : State := s.setPort p { readyPort with timer := .running ms }

/-- Section 8.6, steps 4 to 6: the timers of ports 1, 4 and 6 expire together, and port 3 has the same time left after
each of the three. -/
theorem test_timers_expire_together :
    let afterStep4 := timed 3 3508 (after (.quickCalExpiry 3) (timed 1 3508 (timed 3 2000 (timed 4 3508 (timed 6 3508
      hub)))))
    let one := after (.quickCalExpiry 1) afterStep4
    let three := ran [.quickCalExpiry 4, .quickCalExpiry 6] one
    ((afterStep4.port 1).timer = .running 1508 ∧ (one.port 3).timer = .running 2000 ∧
      (one.port 4).timer = .running 0 ∧ (one.port 4).timer.remaining = 1) ∧
    (three.port 3).timer = .running 2000 ∧
      [three.port 1, three.port 4, three.port 6].map Port.timer = [.expired, .expired, .expired] ∧
      (three.port 6).claim = .queued := by decide +kernel

theorem test_port_messages :
    Ran (.upgrade 0) (on { readyPort with
        state := .trimming .quick, claim := .queued, claimKind := some .quick, fromTrim := [.upgraded 0] }) (fun t =>
      (t.port 0).state = .trimming .full ∧ t.link.reports = [⟨255, .portState 0 (.trimming .full) .upgraded⟩]) ∧
    Ran (.grant 0) (on { readyPort with claim := .queued, fromTrim := [.granted 0] }) (fun t =>
      (t.port 0).claim = .window ∧ (t.port 0).toTrim = [.windowOpen 0]) ∧
    Ran (.grant 0) (on { flying .waitingIdle (.txn (request 1)) line with
        claim := .queued, fromTrim := [.granted 0] }) (fun t => (t.port 0).claim = .granted) ∧
    Ran (.grant 0) (on { readyPort with claim := .queued, fromTrim := [.granted 1] }) (fun t =>
      (t.port 0).claim = .queued ∧ (t.port 0).fromTrim = []) ∧
    Ran (.closure 0) (on { readyPort with fromTrim := [.closure 0 false] }) (fun t => (t.port 0).fromTrim = []) := by
  decide +kernel

/-- The reference held by port 0's request, in phase `phase`. -/
def holding (q : Port) (kind : CalKind) (attempt : Nat) (phase : HolderPhase) : State :=
  { on q with trim := { hub.trim with holder := some ⟨⟨0, kind, .auto, attempt, 0⟩, phase⟩ } }

theorem test_window_and_spoil :
    Ran (.windowOpen 0) (holding { readyPort with claim := .window, toTrim := [.windowOpen 0] } .full 1 .granted)
      (fun t => t.trim.holder = some ⟨⟨0, .full, .auto, 1, 0⟩, .measuring ⟨32, 32, 32⟩ (.full .pu 32 0)⟩ ∧
        (t.port 0).line.driver = .disconnected ∧ (t.port 0).line.spoilWatch = some 0) ∧
    Ran (.spoilReport 0) (holding { readyPort with spoils := [0], line := { line with trim := ⟨1, 2, 3⟩ } } .full 2
        (.measuring ⟨30, 31, 33⟩ (.full .pd 4 0))) (fun t =>
      (t.port 0).line.trim = ⟨30, 31, 33⟩ ∧ (t.port 0).fromTrim = [.windowEnd 0 .spoiled .full .auto false]) ∧
    Ran (.spoilReport 0) (holding { readyPort with spoils := [0] } .full 3 (.measuring ⟨30, 31, 33⟩ (.full .pd 4 0)))
      (fun t => (t.port 0).fromTrim = [.windowEnd 0 .failed .full .auto false]) ∧
    Ran (.spoilReport 0) (on { readyPort with spoils := [0] }) (fun t => (t.port 0).spoils = []) := by decide +kernel

/-- The window end of port 0's QUICK calibration on its way, with the claim WINDOW. -/
def outcomeDue (o : WindowOutcome) : State :=
  holding { readyPort with claim := .window, interval := 700, fromTrim := [.windowEnd 0 o .quick .auto false] } .quick 1
    (.ending ⟨32, 32, 32⟩ o false)

/-- R135's first row: taken first, the expiry is dropped and the outcome restarts the timer; taken after the outcome, it
does not come, up to the closure. After a SPOILED window the timer goes on and may run out. -/
theorem test_expiry_meets_outcome :
    ((ran [.quickCalExpiry 0] (outcomeDue .done)).port 0).timer = .expired ∧
    ((ran [.quickCalExpiry 0, .windowEnd 0] (outcomeDue .done)).port 0).timer = .running 700 ∧
    ((ran [.windowEnd 0, .quickCalExpiry 0] (outcomeDue .done)).port 0).timer = .running 700 ∧
    ((ran [.windowEnd 0, .acknowledgement 0, .quickCalExpiry 0, .closure 0] (outcomeDue .done)).port 0).timer =
      .running 700 ∧
    ((ran [.windowEnd 0, .acknowledgement 0, .closure 0, .quickCalExpiry 0] (outcomeDue .done)).port 0).claim =
      .queued ∧
    ((ran [.windowEnd 0, .quickCalExpiry 0] (outcomeDue .spoiled)).port 0).timer = .expired := by decide +kernel

/-- A timer that runs out before another's expiry has expired by then, and one left at 0 expires as time goes on; a port
that awaits its closure holds it (R133, R135). -/
theorem test_time_passes :
    Ran (.quickCalExpiry 0) (timed 0 700 (timed 7 500 hub)) (fun t =>
      (t.port 7).timer = .expired ∧ (t.port 7).claim = .queued) ∧
    ((timed 7 0 hub).pass 1).port 7 = ((readyPort.timedOut 7).refresh) ∧
    (((ran [.windowEnd 0] (outcomeDue .done)).pass 900).port 0).timer = .running 0 := by decide +kernel

theorem test_closing : (ran [.windowEnd 0] (outcomeDue .rail)).Closing 0 ∧
    (ran [.windowEnd 0, .acknowledgement 0] (outcomeDue .rail)).Closing 0 :=
  ⟨⟨by decide +kernel, .inr ⟨by decide +kernel, ⟨0, .quick, .auto, 1, 0⟩, ⟨32, 32, 32⟩, .rail, false, by decide +kernel,
    rfl, by decide +kernel, by decide⟩⟩, by decide +kernel, .inl (by decide +kernel)⟩

/-- The codes that a FULL measurement of port 0 finds, and how it ends. -/
def measured (right : Trim) : Trim × List TrimMsg :=
  match measureFull right 18 (holding { readyPort with line := { line with trim := ⟨32, 35, 31⟩ } } .full 1
      (.measuring ⟨29, 35, 31⟩ (.full .pu 32 0))) with
  | .next t => ((t.port 0).line.trim, (t.port 0).fromTrim)
  | .fault _ => (⟨0, 0, 0⟩, [])
  | .refused _ => (⟨0, 0, 0⟩, [])

theorem test_full_measurement :
    measured ⟨27, 36, 30⟩ = (⟨27, 36, 30⟩, [.windowEnd 0 .done .full .auto true]) ∧
    measured ⟨29, 35, 31⟩ = (⟨29, 35, 31⟩, [.windowEnd 0 .done .full .auto false]) ∧
    measured ⟨0, 35, 63⟩ = (⟨0, 35, 63⟩, [.windowEnd 0 .rail .full .auto true]) := by decide +kernel
theorem test_quick_comparisons :
    Ran (.comparisonDecided .down) (holding readyPort .quick 1 (.measuring ⟨32, 32, 32⟩ (.quick .pu false))) (fun t =>
      (t.port 0).line.trim = ⟨31, 32, 32⟩) ∧
    Ran (.comparisonDecided .up) (holding { readyPort with line := { line with trim := ⟨31, 32, 63⟩ } } .quick 1
        (.measuring ⟨32, 32, 63⟩ (.quick .tc false))) (fun t =>
      (t.port 0).line.trim = ⟨31, 32, 63⟩ ∧ (t.port 0).fromTrim = [.windowEnd 0 .rail .quick .auto true]) ∧
    Ran (.comparisonDecided .hold) (holding readyPort .quick 1 (.measuring ⟨32, 32, 32⟩ (.quick .tc false))) (fun t =>
      (t.port 0).fromTrim = [.windowEnd 0 .done .quick .auto false]) := by decide +kernel

/-- Port 0 with a window end on its way. -/
def ending (st : PortState) (o : WindowOutcome) (kind : CalKind) (changed : Bool) (restarts : Nat) : State :=
  on { readyPort with
    state := st, claim := .window, claimKind := some kind, interval := 700
    sweep := some { sweepAt 3 with restarts := restarts }
    fromTrim := [.windowEnd 0 o kind .auto changed] }

theorem test_window_end :
    Ran (.windowEnd 0) (ending .ready .spoiled .quick false 0) (fun t =>
      (t.port 0).toTrim = [.acknowledge 0] ∧ (t.port 0).claim = .window) ∧
    Ran (.windowEnd 0) (ending .degraded .done .quick true 1) (fun t =>
      (t.port 0).state = .ready ∧ (t.port 0).timer = .running 700 ∧ (t.port 0).counters.quickDone = 1 ∧
      (t.port 0).sweep.map (fun w => (w.next, w.restarts)) = some (0, 2) ∧
      t.link.reports = [⟨255, .portState 0 .ready .recovered⟩]) ∧
    Ran (.windowEnd 0) (ending .ready .rail .full true 2) (fun t =>
      (t.port 0).state = .degraded ∧ (t.port 0).sweep = none ∧
      t.link.reports = [⟨255, .portState 0 .degraded .rail⟩,
        ⟨0, .sweepDone 0 1 .low (.abandoned .trimChanged) (passAt [4, 5, 6])⟩]) ∧
    Ran (.windowEnd 0) (ending (.trimming .full) .failed .full false 0) (fun t =>
      (t.port 0).state = .faulted .trim ∧ (t.port 0).claim = .none ∧ (t.port 0).toTrim = [.acknowledge 0] ∧
      t.link.reports.length = 2) := by decide +kernel
theorem test_window_moves : windowMoves.all (fun m =>
    decide (m.1.outcomeMove m.2.1 = m.2.2.2.map fun tc => (m.2.2.1, tc))) = true ∧ windowMoves.length = 11 := by
  decide +kernel
theorem test_acknowledgement :
    Ran (.acknowledgement 0) (holding { readyPort with claim := .window, toTrim := [.acknowledge 0] } .full 1
        (.ending ⟨32, 32, 32⟩ .done true)) (fun t =>
      t.trim.holder = none ∧ (t.port 0).fromTrim = [.closure 0 false] ∧
      t.link.reports = [⟨255, .calDone ⟨0, .full, .auto, 1, 0⟩ .done ⟨32, 32, 32⟩⟩]) ∧
    Ran (.acknowledgement 0) (holding { readyPort with claim := .window, toTrim := [.acknowledge 0] } .quick 1
        (.ending ⟨32, 32, 32⟩ .spoiled false)) (fun t =>
      t.trim.holder = some ⟨⟨0, .quick, .auto, 2, 0⟩, .granted⟩ ∧
      (t.port 0).fromTrim = [.closure 0 true, .granted 0] ∧ t.link.reports = []) ∧
    Ran (.closure 0) (on { readyPort with
        claim := .window, fromTrim := [.closure 0 true], queue := [sample 6 .post 1]
        line := { line with driver := .disconnected } }) (fun t =>
      (t.port 0).claim = .queued ∧ (t.port 0).line.driver = .released ∧ (t.port 0).phase = some .waitingIdle) := by
  decide +kernel
theorem test_withdrawal :
    Ran (.withdrawal 0) { holding { Port.reset with toTrim := [.withdraw 0], line := { line with driver := .disconnected } }
        .quick 1 (.measuring ⟨30, 31, 33⟩ (.quick .tc false)) with
        trim := { (holding readyPort .quick 1 (.measuring ⟨30, 31, 33⟩ (.quick .tc false))).trim with
          queue := [⟨5, .full, .auto, 1, 2⟩] } } (fun t =>
      (t.port 0).line.trim = ⟨30, 31, 33⟩ ∧ (t.port 0).line.driver = .released ∧
      t.trim.holder = some ⟨⟨5, .full, .auto, 1, 2⟩, .granted⟩ ∧ (t.port 5).fromTrim = [.granted 2] ∧
      t.link.reports = [⟨255, .calDone ⟨0, .quick, .auto, 1, 0⟩ .abandoned ⟨30, 31, 33⟩⟩]) ∧
    Ran (.withdrawal 0) (held (on { readyPort with toTrim := [.withdraw 0] })
        [⟨0, .quick, .auto, 1, 0⟩, ⟨5, .full, .auto, 1, 2⟩]) (fun t =>
      t.trim.queue = [⟨5, .full, .auto, 1, 2⟩] ∧ t.link.reports.length = 1) ∧
    Ran (.withdrawal 0) (held (on { readyPort with toTrim := [.withdraw 0] }) [⟨0, .quick, .auto, 1, 1⟩]) (fun t =>
      t.trim.queue.length = 1 ∧ t.link.reports = [] ∧ (t.port 0).toTrim = []) := by decide +kernel

/-! ### Invariants -/

/-- The invariants' premises hold of a state with work in flight and of one with an open window. -/
theorem test_invariants :
    (on (flying .sending (.txn (request 1)) driving)).EveryPort (fun q => q.RecordsCurrent ∧ q.InFlightInService ∧
      q.WindowAlone ∧ q.TimerInService ∧ q.LineFollowsPhase ∧ q.LateReplyCleared ∧ q.QueueFits ∧ q.QueueOrdered ∧ q.TableFits ∧
      q.RunFits) ∧
    (on { readyPort with claim := .window }).EveryPort (fun q => q.WindowAlone ∧ q.InFlightInService) ∧
    hub.link.Fits ∧ busy.TagsDistinct ∧ (held hub [⟨0, .quick, .auto, 1, 0⟩]).trim.QueueAlone ∧
    hub.trim.InRange := by decide +kernel

end Sys2Proof.Tests
end

/-! SUPPORT. The check of R7: the register bit by bit and byte by byte, the frames that carry the check, and the
judging of a received check. -/

namespace Sys2Proof.Machine

/-! ### The register -/

/-- The two cases of R7 for one data bit: bits that are equal leave the shifted register, bits that differ combine it
with the generator. -/
theorem crcBit_eq_ite (reg : Word16) (bit : Bool) :
    crcBit reg bit = if reg.getLsbD 0 = bit then reg >>> 1 else (reg >>> 1) ^^^ 0x8408 := by
  by_cases same : reg.getLsbD 0 = bit
  · simp only [crcBit, same, bne_self_eq_false, Bool.false_eq_true, if_false, if_true]
  · simp only [crcBit, bne_iff_ne.mpr same, same, if_true, if_false]

@[simp] theorem checkOf_nil : checkOf [] = 0xFFFF := rfl

@[simp] theorem checkOf_concat (bytes : List Byte) (b : Byte) :
    checkOf (bytes ++ [b]) = crcByte (checkOf bytes) b := List.foldl_concat ..

/-- The reference value of R7. -/
theorem checkOf_digits : checkOf [0x31, 0x32, 0x33, 0x34, 0x35, 0x36, 0x37, 0x38, 0x39] = 0x6F91 := by
  decide +kernel

/-! ### A two-byte value and its bytes -/

@[simp] theorem toNat_lowByte (w : Word16) : (lowByte w).toNat = w.toNat % 256 := BitVec.toNat_setWidth ..

@[simp] theorem toNat_highByte (w : Word16) : (highByte w).toNat = w.toNat / 256 := by
  have bound : w.toNat < 65536 := w.isLt
  simp only [highByte, BitVec.toNat_setWidth, BitVec.toNat_ushiftRight, Nat.shiftRight_eq_div_pow]
  omega

@[simp] theorem toNat_word (lo hi : Byte) : (word lo hi).toNat = 256 * hi.toNat + lo.toNat := by
  have bound : lo.toNat < 2 ^ 8 := lo.isLt
  rw [word, BitVec.toNat_append, ← Nat.shiftLeft_add_eq_or_of_lt bound, Nat.shiftLeft_eq]
  omega

/-- Two bytes make up a value exactly when they are its low byte and its high byte. -/
theorem eq_word_iff (w : Word16) (lo hi : Byte) : w = word lo hi ↔ lowByte w = lo ∧ highByte w = hi := by
  have bound : lo.toNat < 256 := lo.isLt
  simp only [← BitVec.toNat_inj, toNat_word, toNat_lowByte, toNat_highByte]
  omega

/-! ### Frames sent and received -/

/-- The characters of a frame that its check covers: the marked head, COUNT and the payload (R5, R7). -/
def coveredChars (kind : FrameKind) (a : Addr) (payload : List Byte) : List LineChar :=
  ⟨headByte kind a, true⟩ :: (BitVec.ofNat 8 payload.length :: payload).map fun b => ⟨b, false⟩

@[simp] theorem coveredChars_data (kind : FrameKind) (a : Addr) (payload : List Byte) :
    (coveredChars kind a payload).map LineChar.data =
      headByte kind a :: BitVec.ofNat 8 payload.length :: payload := by
  simp [coveredChars, Function.comp_def]

/-- A frame is its covered characters and then their check, low byte first. -/
theorem frameChars_eq_coveredChars_append (kind : FrameKind) (a : Addr) (payload : List Byte) :
    frameChars kind a payload = coveredChars kind a payload ++
      [⟨lowByte (checkOf ((coveredChars kind a payload).map LineChar.data)), false⟩,
       ⟨highByte (checkOf ((coveredChars kind a payload).map LineChar.data)), false⟩] := by
  rw [coveredChars_data]
  simp [frameChars, coveredChars]

/-- The check of a record with its COUNT and both check characters is judged by the computed check. -/
theorem FrameRec.checkGood_iff {r : FrameRec} {n lo hi : Byte} (count : r.count = some n)
    (low : r.checkLo = some lo) (high : r.checkHi = some hi) :
    r.checkGood = true ↔ checkOf (headByte r.kind r.addr :: n :: r.payload) = word lo hi := by
  simp only [FrameRec.checkGood, count, low, high, beq_iff_eq]

/-- Settles O28: the parts about the register, then the frame sent as its covered characters and their check, then
the received check as a value split into its two bytes. -/
theorem checkIsComputedBitByBit : Obligations.CheckIsComputedBitByBit := by
  unfold Obligations.CheckIsComputedBitByBit
  refine ⟨crcBit_eq_ite, fun _ _ => rfl, checkOf_nil, checkOf_concat, checkOf_digits, ?sent, ?received⟩
  case sent =>
    exact fun kind a payload =>
      ⟨coveredChars kind a payload, coveredChars_data .., frameChars_eq_coveredChars_append ..⟩
  case received =>
    intro r n lo hi count low high
    rw [FrameRec.checkGood_iff count low high, eq_word_iff]

end Sys2Proof.Machine

/-! SUPPORT. The host commands on the station table: their operands read back from the body that carries them, what
each of them does past the common checks, and the frame of a command that answers OK and works on one port. -/

namespace Sys2Proof.Machine

/-! ### Operands -/

/-- An address other than 0, carried in a byte, is read back. -/
theorem addrOf_setWidth {a : Addr} (nonzero : a ≠ 0) : addrOf (a.setWidth 8) = some a := by
  have positive : a.toNat ≠ 0 := by simpa [← BitVec.toNat_inj] using nonzero
  have bound : a.toNat < 64 := a.isLt
  have same : (a.setWidth 8).toNat = a.toNat := BitVec.toNat_setWidth_of_le (by decide)
  rw [addrOf, if_neg (by omega), BitVec.setWidth_setWidth_of_le a (by decide), BitVec.setWidth_eq]

@[simp] theorem rangeOf_code (range : ThRange) : rangeOf range.code = some range := by
  cases range <;> rfl

/-- A code, carried in a byte, is read back. -/
@[simp] theorem thCodeOf_setWidth (code : ThCode) : thCodeOf (code.setWidth 8) = some code := by
  have bound : code.toNat < 32 := code.isLt
  have same : (code.setWidth 8).toNat = code.toNat := BitVec.toNat_setWidth_of_le (by decide)
  rw [thCodeOf, if_pos (by omega), BitVec.setWidth_setWidth_of_le code (by decide), BitVec.setWidth_eq]

theorem parseStation_body (p : PortId) {a : Addr} (nonzero : a ≠ 0) :
    parseStation [portByte p, a.setWidth 8] = .ok (p, a) := by
  simp only [parseStation, parsePort_portByte, addrOf_setWidth nonzero]
  rfl

theorem parseThreshold_body (p : PortId) {a : Addr} (nonzero : a ≠ 0) (range : ThRange) (code : ThCode) :
    parseThreshold [portByte p, a.setWidth 8, range.code, code.setWidth 8] = .ok (p, a, ⟨range, code⟩) := by
  simp only [parseThreshold, parsePort_portByte, addrOf_setWidth nonzero, rangeOf_code, thCodeOf_setWidth]
  rfl

/-- The threshold an ADD_STATION gives: none for the code FFh (R48). -/
def givenThreshold (range : ThRange) (code : Byte) : Option Threshold :=
  if code = 0xFF then none else some ⟨range, code.setWidth 5⟩

theorem parseAdd_body (p : PortId) {a : Addr} (nonzero : a ≠ 0) (range : ThRange) {code : Byte}
    (valid : code.toNat < 32 ∨ code = 0xFF) :
    parseAdd [portByte p, a.setWidth 8, range.code, code] = .ok (p, a, givenThreshold range code) := by
  simp only [parseAdd, givenThreshold, parsePort_portByte, addrOf_setWidth nonzero, rangeOf_code]
  by_cases isDefault : code = 0xFF
  · rw [if_pos isDefault]
    simp only [isDefault]
    rfl
  · have small : thCodeOf code = some (code.setWidth 5) := if_pos (valid.resolve_right isDefault)
    rw [if_neg isDefault]
    simp only [small]
    exact if_neg isDefault

/-- The values of a new entry in R40, for the threshold that the operands give. -/
theorem Station.create_given (a : Addr) (range : ThRange) (code : Byte) :
    Station.create a (givenThreshold range code) =
      { addr := a, state := .active, failureRun := 0, strikes := 0,
        threshold := if code = 0xFF then ⟨.low, 20⟩ else ⟨range, code.setWidth 5⟩,
        origin := if code = 0xFF then .default else .manual,
        lastWindow := none, completed := 0, failed := 0, late := 0, noisy := 0 } := by
  by_cases isDefault : code = 0xFF
  · simp only [givenThreshold, if_pos isDefault]
    rfl
  · simp only [givenThreshold, if_neg isDefault]
    rfl

/-! ### The work that names a station -/

/-- The entries that a removal leaves. -/
theorem filter_addr_bne (stations : List Station) (a : Addr) :
    (stations.filter fun e => e.addr != a) = stations.filter fun e => decide (e.addr ≠ a) :=
  List.filter_congr fun e _ => by simp [bne, beq_eq_decide]

/-- The active sweep is on the station. -/
theorem Port.sweeping_iff (q : Port) (a : Addr) : q.sweeping a = true ↔ ∃ w, q.sweep = some w ∧ w.station = a := by
  unfold Port.sweeping
  rcases q.sweep with _ | w <;> simp

/-- A station is busy in three ways: by a queued transaction, by the one in flight, by the sweep (R49). -/
theorem Port.stationBusy_iff (q : Port) (a : Addr) : q.stationBusy a = true ↔
    (∃ x ∈ q.queue, x.station = some a) ∨
    (∃ ph r, q.inFlight = some ⟨ph, .txn r⟩ ∧ r.txn.station = some a) ∨
    (∃ w, q.sweep = some w ∧ w.station = a) := by
  have queued : q.queue.any (fun t => t.station == some a) = true ↔ ∃ x ∈ q.queue, x.station = some a := by simp
  rw [← q.sweeping_iff a, ← queued]
  unfold Port.stationBusy Port.sweeping
  rcases q.inFlight with _ | ⟨ph, r | r⟩ <;> simp [or_assoc]

/-! ### The commands past the common checks -/

section

variable {s : State} {f : HostFrame} {p : PortId} {a : Addr}

/-- ADD_STATION (R48). -/
theorem exec_addStation {range : ThRange} {code : Byte} (takes : s.Takes f) (kind : f.kind = 0x0C)
    (body : f.body = [portByte p, a.setWidth 8, range.code, code]) (nonzero : a ≠ 0)
    (valid : code.toNat < 32 ∨ code = 0xFF) :
    exec .addStation s = .next
      (if ((s.port p).station a).isSome then respond f .stationExists [] s.popFrame
       else if 16 ≤ (s.port p).stations.length then respond f .tableFull [] s.popFrame
       else (respond f .ok [] s.popFrame).modPort p fun q =>
         { q with stations := q.stations ++ [Station.create a (givenThreshold range code)] }) :=
  congrArg Host.Outcome.next (takeCommand_ok takes kind (body ▸ parseAdd_body p nonzero range valid) _)

/-- REMOVE_STATION (R49). -/
theorem exec_removeStation (takes : s.Takes f) (kind : f.kind = 0x0D)
    (body : f.body = [portByte p, a.setWidth 8]) (nonzero : a ≠ 0) :
    exec .removeStation s = .next
      (if ((s.port p).station a).isNone then respond f .unknownStation [] s.popFrame
       else if (s.port p).stationBusy a then respond f .stationBusy [] s.popFrame
       else (respond f .ok [] s.popFrame).modPort p fun q =>
         { q with stations := q.stations.filter fun e => e.addr != a }) :=
  congrArg Host.Outcome.next (takeCommand_ok takes kind (body ▸ parseStation_body p nonzero) _)

/-- RELEASE_STATION (R50). -/
theorem exec_releaseStation (takes : s.Takes f) (kind : f.kind = 0x0E)
    (body : f.body = [portByte p, a.setWidth 8]) (nonzero : a ≠ 0) :
    exec .releaseStation s = .next
      (if ((s.port p).station a).isNone then respond f .unknownStation [] s.popFrame
       else updateStation p a Station.released .released (respond f .ok [] s.popFrame)) :=
  congrArg Host.Outcome.next (takeCommand_ok takes kind (body ▸ parseStation_body p nonzero) _)

/-- SET_THRESHOLD (R51). -/
theorem exec_setThreshold {range : ThRange} {code : ThCode} (takes : s.Takes f) (kind : f.kind = 0x0F)
    (body : f.body = [portByte p, a.setWidth 8, range.code, code.setWidth 8]) (nonzero : a ≠ 0) :
    exec .setThreshold s = .next
      (if ((s.port p).station a).isNone then respond f .unknownStation [] s.popFrame
       else if (s.port p).sweeping a then respond f .sweepBusy [] s.popFrame
       else (respond f .ok [] s.popFrame).modPort p fun q =>
         q.modStation a fun e => { e with threshold := ⟨range, code⟩, origin := .manual }) :=
  congrArg Host.Outcome.next (takeCommand_ok takes kind (body ▸ parseThreshold_body p nonzero range code) _)

/-! ### A command that answers OK and works on one port -/

/-- The frame of a command that is answered and then works on one port without touching the live tags: the answer stands,
the notices are those of the work, and nothing else of the hub moves. -/
theorem answered_of_work {t : State} {r : Result} {d : List Byte} {ns : List Notice}
    (work : PortWork p (respond f r d s.popFrame) t) (tags : t.cmd = s.cmd)
    (posted : Reported (respond f r d s.popFrame) t ns) :
    Answered s t f r d ∧ Reported s t ns ∧ OnlyPort s t p := by
  obtain ⟨⟨-, -, ⟨rate, receiver, framer, gap⟩, inbound, answers⟩, silent, -⟩ := respond_spec f r d s
  obtain ⟨rate', receiver', framer', gap'⟩ := work.receiver
  refine ⟨⟨work.power, work.pending, ⟨?_, ?_, ?_, ?_⟩, ?_, ?_⟩, silent.trans posted, tags, work.trim, work.others⟩
  · exact rate'.trans rate
  · exact receiver'.trans receiver
  · exact framer'.trans framer
  · exact gap'.trans gap
  · exact work.inbound.trans inbound
  · exact work.answers.trans answers

/-- A command that answers OK and changes one port by `g`. -/
theorem respond_modPort_spec (s : State) (f : HostFrame) (p : PortId) (g : Port → Port) :
    Answered s ((respond f .ok [] s.popFrame).modPort p g) f .ok [] ∧
    Reported s ((respond f .ok [] s.popFrame).modPort p g) [] ∧
    OnlyPort s ((respond f .ok [] s.popFrame).modPort p g) p ∧
    ((respond f .ok [] s.popFrame).modPort p g).port p = (g (s.port p)).refresh := by
  obtain ⟨answered, reported, only⟩ :=
    answered_of_work (modPort_work p g (respond f .ok [] s.popFrame)) rfl (Reported.of_link_eq rfl)
  exact ⟨answered, reported, only, State.modPort_port_same ..⟩

/-- An entry that is there is changed, and its STATION_STATE is queued exactly when its state changed (R46). -/
theorem updateStation_spec {e : Station} (known : (s.port p).station a = some e) (g : Station → Station)
    (cause : StationCause) (room : s.RoomFor 1) :
    Reported s (updateStation p a g cause s)
      (if (g e).state = e.state then [] else [.stationState p a (g e).state cause]) ∧
    (updateStation p a g cause s).cmd = s.cmd ∧
    (updateStation p a g cause s).port p = ((s.port p).modStation a g).refresh := by
  simp only [updateStation, known]
  by_cases same : (g e).state = e.state
  · rw [if_pos same, if_pos same]
    exact ⟨Reported.of_link_eq rfl, rfl, State.modPort_port_same ..⟩
  · rw [if_neg same, if_neg same]
    have changed : Reported s (s.modPort p fun q => q.modStation a g) [] := Reported.of_link_eq rfl
    exact ⟨changed.trans (postNotice_reported _ _ room).1, rfl, s.modPort_port_same p fun q => q.modStation a g⟩

/-- RELEASE_STATION's work on an entry that is there. -/
theorem respond_release_spec {e : Station} (known : (s.port p).station a = some e) (f : HostFrame)
    (room : s.RoomFor 1) :
    let t := updateStation p a Station.released .released (respond f .ok [] s.popFrame)
    Answered s t f .ok [] ∧ Reported s t (if e.state = .active then [] else [.stationState p a .active .released]) ∧
    OnlyPort s t p ∧ t.port p = ((s.port p).modStation a Station.released).refresh := by
  intro t
  have room' : (respond f .ok [] s.popFrame).RoomFor 1 := by simpa [State.popFrame] using room
  obtain ⟨posted, tags, own⟩ :=
    updateStation_spec (s := respond f .ok [] s.popFrame) known Station.released .released room'
  obtain ⟨answered, reported, only⟩ := answered_of_work (updateStation_work p a _ _ _) tags posted
  simp only [Station.released, eq_comm (a := StationState.active)] at reported
  exact ⟨answered, reported, only, own⟩

end

/-! ### The obligations -/

/-- Settles O22: the two refusals of R48, and the fresh entry in R40's values. -/
theorem addStationPlacesAFreshEntry : Obligations.AddStationPlacesAFreshEntry := by
  unfold Obligations.AddStationPlacesAFreshEntry
  intro s f p a range code takes kind body nonzero valid
  rw [exec_addStation takes kind body nonzero valid]
  refine ⟨fun known => ?_, fun absent full => ?_, fun absent room => ?_⟩
  · rw [if_pos (Option.isSome_iff_ne_none.mpr known)]
    exact ⟨_, rfl, respond_spec ..⟩
  · rw [if_neg (by simp [absent]), if_pos full]
    exact ⟨_, rfl, respond_spec ..⟩
  · rw [if_neg (by simp [absent]), if_neg (Nat.not_le.mpr room), Station.create_given]
    exact ⟨_, rfl, respond_modPort_spec ..⟩

/-- Settles O23: the statement's three ways of being busy are those of the model's check (`Port.stationBusy_iff`). -/
theorem removeStationClosesUp : Obligations.RemoveStationClosesUp := by
  unfold Obligations.RemoveStationClosesUp
  intro s f p a takes kind body nonzero
  rw [exec_removeStation takes kind body nonzero]
  refine ⟨fun absent => ?_, fun known busy => ?_, fun known notQueued notInFlight notSwept => ?_⟩
  · rw [if_pos (Option.isNone_iff_eq_none.mpr absent)]
    exact ⟨_, rfl, respond_spec ..⟩
  · rw [if_neg (by simpa using known), if_pos (((s.port p).stationBusy_iff a).mpr busy)]
    exact ⟨_, rfl, respond_spec ..⟩
  · have free : ¬ (s.port p).stationBusy a = true := by
      rw [Port.stationBusy_iff]
      rintro (⟨x, mem, names⟩ | ⟨ph, r, flies, names⟩ | ⟨w, active, on⟩)
      · exact notQueued x mem names
      · exact notInFlight ph r flies names
      · exact notSwept w active on
    simp only [← filter_addr_bne]
    rw [if_neg (by simpa using known), if_neg free]
    exact ⟨_, rfl, respond_modPort_spec ..⟩

/-- Settles O24: RELEASE_STATION by the rule of a change with its STATION_STATE, SET_THRESHOLD by the rule of a silent
change of one port. -/
theorem releaseAndThresholdChangeOneEntry : Obligations.ReleaseAndThresholdChangeOneEntry := by
  unfold Obligations.ReleaseAndThresholdChangeOneEntry
  intro s f p a takes nonzero
  refine ⟨?release, ?threshold⟩
  case release =>
    intro kind body
    rw [exec_releaseStation takes kind body nonzero]
    refine ⟨fun absent => ?_, fun e known room => ?_⟩
    · rw [if_pos (Option.isNone_iff_eq_none.mpr absent)]
      exact ⟨_, rfl, respond_spec ..⟩
    · rw [if_neg (by simp [known])]
      exact ⟨_, rfl, respond_release_spec known f room⟩
  case threshold =>
    intro range code kind body
    rw [exec_setThreshold takes kind body nonzero]
    refine ⟨fun absent => ?_, fun known swept => ?_, fun known notSwept => ?_⟩
    · rw [if_pos (Option.isNone_iff_eq_none.mpr absent)]
      exact ⟨_, rfl, respond_spec ..⟩
    · rw [if_neg (by simpa using known), if_pos (((s.port p).sweeping_iff a).mpr swept)]
      exact ⟨_, rfl, respond_spec ..⟩
    · have free : ¬ (s.port p).sweeping a = true := by
        rw [Port.sweeping_iff]
        rintro ⟨w, active, on⟩
        exact notSwept w active on
      rw [if_neg (by simpa using known), if_neg free]
      exact ⟨_, rfl, respond_modPort_spec ..⟩

end Sys2Proof.Machine

/-! SUPPORT. The selected termination: the profile's fallbacks, one equation for each way the roles can stand, and the
port conditions that the rows of R102's table name. -/

namespace Sys2Proof.Machine

/-! ### The profile's fallbacks -/

theorem Profile.parkOrNone_of_given {f : Profile} {c : TermCode} (given : f.park = some c) :
    f.parkOrNone = ⟨.park, c⟩ := by
  simp [Profile.parkOrNone, given]

theorem Profile.parkOrNone_of_absent {f : Profile} (absent : f.park = none) : f.parkOrNone = ⟨.highZ, 0⟩ := by
  simp [Profile.parkOrNone, absent]

theorem Profile.nominalOrPark_of_given {f : Profile} {c : TermCode} (hold : f.hold = true)
    (given : f.nominal = some c) : f.nominalOrPark = ⟨.nominal, c⟩ := by
  simp [Profile.nominalOrPark, hold, given]

/-- Hold on, nominal absent: hold has no effect (R99). -/
theorem Profile.nominalOrPark_of_absent {f : Profile} (absent : f.nominal = none) :
    f.nominalOrPark = f.parkOrNone := by
  simp [Profile.nominalOrPark, absent]

/-- Nominal given, hold off: nominal is never selected (R99). -/
theorem Profile.nominalOrPark_of_hold_off {f : Profile} (off : f.hold = false) : f.nominalOrPark = f.parkOrNone := by
  simp [Profile.nominalOrPark, off]

theorem Profile.listenOr_of_given {f : Profile} {c : TermCode} (given : f.listen = some c) :
    f.listenOr = ⟨.listen, c⟩ := by
  simp [Profile.listenOr, given]

theorem Profile.listenOr_of_absent {f : Profile} (absent : f.listen = none) : f.listenOr = f.nominalOrPark := by
  simp [Profile.listenOr, absent]

/-! ### The rows' conditions -/

/-- The receiver is off exactly in the states of the table's first row. -/
theorem PortState.receives_eq_false_iff (st : PortState) : st.receives = false ↔
    st = .off ∨ st = .doze ∨ st = .faulted .trim ∨ st = .faulted .stuck ∨ st = .faulted .contention := by
  rcases st with _ | kind | _ | _ | _ | cause
  case faulted => cases cause <;> simp [PortState.receives]
  all_goals simp [PortState.receives]

theorem Port.inExchange_iff (q : Port) : q.inExchange = true ↔
    q.phase = some .sending ∨ q.phase = some .turnaround ∨ q.phase = some .awaiting ∨ q.phase = some .receiving := by
  unfold Port.inExchange
  rcases q.phase with _ | phase
  case none => simp
  case some => cases phase <;> simp

/-! ### The obligation -/

/-- Settles O45: the three fallbacks are the profile's own, and the rows follow from the top; past row 2 an exchange
in its four phases is one of the three of row 4. -/
theorem terminationFollowsTheTable : Obligations.TerminationFollowsTheTable := by
  unfold Obligations.TerminationFollowsTheTable
  intro q parkOr nominalOr listenOr
  have park : q.profile.parkOrNone = parkOr := by
    rcases given : q.profile.park with _ | c
    case none => simp only [parkOr, given, Profile.parkOrNone_of_absent given]
    case some => simp only [parkOr, given, Profile.parkOrNone_of_given given]
  have nominal : q.profile.nominalOrPark = nominalOr := by
    rcases hold : q.profile.hold with _ | _
    case false => simp [nominalOr, hold, Profile.nominalOrPark_of_hold_off hold, park]
    case true =>
      rcases given : q.profile.nominal with _ | c
      case none => simp [nominalOr, hold, given, Profile.nominalOrPark_of_absent given, park]
      case some => simp [nominalOr, hold, given, Profile.nominalOrPark_of_given hold given]
  have listen : q.profile.listenOr = listenOr := by
    rcases given : q.profile.listen with _ | c
    case none => simp only [listenOr, given, Profile.listenOr_of_absent given, nominal]
    case some => simp only [listenOr, given, Profile.listenOr_of_given given]
  rw [Port.selectTermination, park, listen, nominal]
  refine if_congr (by simpa using q.state.receives_eq_false_iff) rfl ?_
  by_cases sending : q.phase = some .sending
  · rw [if_pos sending, if_pos sending]
  · rw [if_neg sending, if_neg sending]
    exact if_congr Iff.rfl rfl (if_congr (by simp [Port.inExchange_iff, sending]) rfl rfl)

end Sys2Proof.Machine

/-! SUPPORT. The invariants of a port, as what each operation of its engine keeps: the laws of an exchange (O57), the
bounds of its queue, its table and its collision run (O58), and what the operations leave of the host link's queues and
of the live tags (O59). One lemma per shared operation. -/

namespace Sys2Proof.Machine

/-! ### The laws and the bounds of a port -/

/-- The laws of O57 together. -/
structure Port.Lawful (q : Port) : Prop where
  inService : q.InFlightInService
  alone : q.WindowAlone
  timer : q.TimerInService
  line : q.LineFollowsPhase
  late : q.LateReplyCleared

/-- The bounds of O58 together. -/
structure Port.Bounded (q : Port) : Prop where
  fits : q.QueueFits
  ordered : q.QueueOrdered
  table : q.TableFits
  run : q.RunFits

/-- From `q` to `r` nothing that the laws restrict has been added. -/
structure Port.LeavesLaws (q r : Port) : Prop where
  state : r.state = q.state := by rfl
  phase : r.phase = q.phase := by rfl
  claim : r.claim = .window → q.claim = .window := by exact id
  timer : q.timer = .stopped → r.timer = .stopped := by exact id
  late : q.lateReply = none → r.lateReply = none := by exact id
  driver : r.line.driver = .driving → q.line.driver = .driving := by exact id
  turnaround : r.line.turnaround ≠ none → q.line.turnaround ≠ none := by exact id

/-- From `q` to `r` nothing that the bounds restrict has been added. -/
structure Port.LeavesBounds (q r : Port) : Prop where
  queue : r.queue.Sublist q.queue := by exact List.Sublist.refl _
  stations : (r.stations.map Station.addr).Sublist (q.stations.map Station.addr) := by exact List.Sublist.refl _
  run : r.collisionRun ≤ q.collisionRun := by exact Nat.le_refl _

theorem Port.phase_eq_none {q : Port} : q.phase = none ↔ q.inFlight = none := by simp [Port.phase]

theorem Port.Lawful.leave {q r : Port} (h : q.Lawful) (k : q.LeavesLaws r) : r.Lawful where
  inService := fun hr => by
    rw [k.state]
    exact h.inService fun hq => hr (Port.phase_eq_none.1 (k.phase.trans (Port.phase_eq_none.2 hq)))
  alone := fun hr => Port.phase_eq_none.1 (k.phase.trans (Port.phase_eq_none.2 (h.alone (k.claim hr))))
  timer := fun hr => k.timer (h.timer (k.state ▸ hr))
  line := ⟨fun hr => k.phase.trans (h.line.1 (k.driver hr)), fun hr => k.phase.trans (h.line.2 (k.turnaround hr))⟩
  late := fun hr => k.late (h.late (k.phase ▸ hr))

theorem Port.Bounded.leave {q r : Port} (h : q.Bounded) (k : q.LeavesBounds r) : r.Bounded where
  fits := k.queue.length_le.trans h.fits
  ordered := h.ordered.sublist k.queue
  table := ⟨by simpa using k.stations.length_le.trans (by simpa using h.table.1), h.table.2.sublist k.stations⟩
  run := k.run.trans h.run

/-- With nothing in flight the laws only ask for a line at rest and a timer that follows the state. -/
theorem Port.Lawful.of_no_work {q : Port} (work : q.inFlight = none) (driver : q.line.driver ≠ .driving)
    (turnaround : q.line.turnaround = none) (timer : q.TimerInService) : q.Lawful where
  inService := fun h => absurd work h
  alone := fun _ => work
  timer := timer
  line := ⟨fun h => absurd h driver, fun h => absurd turnaround h⟩
  late := by simp [Port.phase, work]

theorem Port.Lawful.driver_of_phase {q : Port} (h : q.Lawful) (ph : q.phase ≠ some .sending) :
    q.line.driver ≠ .driving := fun e => ph (h.line.1 e)

theorem Port.Lawful.turnaround_of_phase {q : Port} (h : q.Lawful) (ph : q.phase ≠ some .turnaround) :
    q.line.turnaround = none := by
  by_contra e
  exact ph (h.line.2 e)

theorem Port.Lawful.driver_of_no_work {q : Port} (h : q.Lawful) (work : q.inFlight = none) :
    q.line.driver ≠ .driving := h.driver_of_phase (by simp [Port.phase, work])

theorem Port.Lawful.turnaround_of_no_work {q : Port} (h : q.Lawful) (work : q.inFlight = none) :
    q.line.turnaround = none := h.turnaround_of_phase (by simp [Port.phase, work])

/-- A port out of service has nothing in flight. -/
theorem Port.Lawful.no_work {q : Port} (h : q.Lawful) (out : q.state.inService = false) : q.inFlight = none := by
  by_contra e
  simp [h.inService e] at out

theorem LineIf.endExchange_driver (l : LineIf) : l.endExchange.driver ≠ .driving := by
  simp only [LineIf.endExchange]
  split
  · simp
  · assumption

/-! ### Choosing and beginning work -/

/-- Work that begins on an idle line is in SENDING with the record cleared. -/
theorem Port.Lawful.beginIfIdle {q : Port} (h : q.Lawful) : q.beginIfIdle.Lawful := by
  unfold Port.beginIfIdle
  split
  · exact h
  · next f hf =>
    split
    · next hidle =>
      have hnot : q.phase ≠ some .turnaround := by
        rcases hidle.1 with e | e <;> simp [Port.phase, hf, e]
      exact ⟨fun _ => h.inService (by simp [hf]), fun hw => absurd (h.alone hw) (by simp [hf]), h.timer,
        ⟨fun _ => rfl, fun ht => absurd (h.turnaround_of_phase hnot) ht⟩, fun _ => rfl⟩
    · exact h

theorem Port.beginIfIdle_leavesBounds (q : Port) : q.LeavesBounds q.beginIfIdle := by
  unfold Port.beginIfIdle
  split
  · exact {}
  · split <;> exact {}

/-- Work that waits for the line: the port in service, no window open and the line at rest. -/
theorem Port.Lawful.of_waiting {q : Port} {f : InFlight} (work : q.inFlight = some f)
    (waits : f.phase = .waitingIdle ∨ f.phase = .recovering) (service : q.state.inService = true)
    (claim : q.claim ≠ .window) (driver : q.line.driver ≠ .driving) (turnaround : q.line.turnaround = none) :
    q.Lawful where
  inService := fun _ => service
  alone := fun h => absurd h claim
  timer := fun h => by simp [service] at h
  line := ⟨fun h => absurd h driver, fun h => absurd turnaround h⟩
  late := by rcases waits with e | e <;> simp [Port.phase, work, e]

section
variable {q : Port} (service : q.state.inService = true) (work : q.inFlight = none) (claim : q.claim ≠ .window)
include service work claim

theorem Port.Lawful.takeHead (h : q.Lawful) : q.takeHead.Lawful := by
  unfold Port.takeHead
  split
  · exact h
  · exact Port.Lawful.beginIfIdle
      (.of_waiting rfl (.inl rfl) service claim (h.driver_of_no_work work) (h.turnaround_of_no_work work))

theorem Port.Lawful.takeProbe (h : q.Lawful) (w : Sweep) : (q.takeProbe w).Lawful :=
  Port.Lawful.beginIfIdle
    (.of_waiting rfl (.inl rfl) service claim (h.driver_of_no_work work) (h.turnaround_of_no_work work))

end

theorem Port.Lawful.openWindow {q : Port} (h : q.Lawful) (work : q.inFlight = none) : q.openWindow.Lawful :=
  ⟨h.inService, fun _ => work, h.timer, h.line, h.late⟩

theorem Port.Lawful.nextWork {q : Port} (h : q.Lawful) : q.nextWork.Lawful := by
  unfold Port.nextWork
  split
  · next hn =>
    obtain ⟨service, work, claim⟩ := hn
    split
    · exact h.openWindow work
    · split
      · split
        · exact h.takeHead service work claim
        · exact h.takeProbe service work claim _
      · exact h.takeHead service work claim
  · exact h

theorem Port.LeavesBounds.trans {q r u : Port} (h : q.LeavesBounds r) (k : r.LeavesBounds u) : q.LeavesBounds u :=
  ⟨k.queue.trans h.queue, k.stations.trans h.stations, k.run.trans h.run⟩

theorem Port.takeHead_leavesBounds (q : Port) : q.LeavesBounds q.takeHead := by
  unfold Port.takeHead
  split
  · exact {}
  · next rest hq =>
    refine .trans ?_ (Port.beginIfIdle_leavesBounds _)
    exact { queue := by rw [hq]; exact List.sublist_cons_self .. }

theorem Port.takeProbe_leavesBounds (q : Port) (w : Sweep) : q.LeavesBounds (q.takeProbe w) :=
  .trans {} (Port.beginIfIdle_leavesBounds _)

theorem Port.nextWork_leavesBounds (q : Port) : q.LeavesBounds q.nextWork := by
  unfold Port.nextWork
  split
  · split
    · exact {}
    · split
      · split
        · exact q.takeHead_leavesBounds
        · exact q.takeProbe_leavesBounds _
      · exact q.takeHead_leavesBounds
  · exact {}

theorem Port.Lawful.endExchange {q : Port} (timer : q.TimerInService) : q.endExchange.Lawful :=
  .of_no_work rfl (LineIf.endExchange_driver _) rfl timer

/-- Changing a station's entry leaves the addresses of the table. -/
theorem Port.modStation_leavesBounds (q : Port) (a : Addr) {f : Station → Station} (hf : ∀ e, (f e).addr = e.addr) :
    q.LeavesBounds (q.modStation a f) := by
  have same : ((q.modStation a f).stations.map Station.addr) = q.stations.map Station.addr := by
    simp only [Port.modStation, List.map_map]
    refine List.map_congr_left fun e _ => ?_
    simp only [Function.comp_apply]
    split
    · exact hf e
    · rfl
  exact { stations := by rw [same] }

theorem Station.complete_addr (e : Station) (k : TxnKind) (o : TxnOutcome) : (e.complete k o).addr = e.addr := by
  cases o <;> simp only [Station.complete] <;> split <;> rfl

/-! ### What the operations of an engine keep -/

/-- What goes on in the hub outside the ports and the trim unit: the outbound queues keep within their places, and tags
only leave the live tag set. -/
structure Sheds (s t : State) : Prop where
  responses : t.link.responses.length ≤ s.link.responses.length
  notices : s.link.notices.length ≤ Config.noticePlaces → t.link.notices.length ≤ Config.noticePlaces
  live : t.cmd.live.Sublist s.cmd.live

theorem Sheds.refl (s : State) : Sheds s s := ⟨le_rfl, id, .refl _⟩

theorem Sheds.trans {s t u : State} (h : Sheds s t) (k : Sheds t u) : Sheds s u :=
  ⟨k.responses.trans h.responses, k.notices ∘ h.notices, k.live.trans h.live⟩

theorem Link.transmit_sheds (l : Link) (d : Bool) : (l.transmit d).responses.length ≤ l.responses.length ∧
    (l.notices.length ≤ Config.noticePlaces → (l.transmit d).notices.length ≤ Config.noticePlaces) := by
  unfold Link.transmit
  split
  · split
    · next rest hr => simp [hr]
    · split
      · simp
      · unfold Link.takeNotice
        split
        · simp
        · next rest hn =>
          dsimp only
          split
          · simp [Link.enqueue, hn]
          · simp only [hn, List.length_cons]
            exact ⟨le_rfl, fun h => by omega⟩
  · exact ⟨le_rfl, id⟩
  · exact ⟨le_rfl, id⟩

theorem postNotice_sheds (n : Notice) (s : State) : Sheds s (postNotice n s) := by
  have post : (s.link.post n).responses = s.link.responses ∧
      (s.link.notices.length ≤ Config.noticePlaces → (s.link.post n).notices.length ≤ Config.noticePlaces) := by
    unfold Link.post
    split
    · next room => exact ⟨rfl, fun _ => by simpa [Link.enqueue] using room⟩
    · exact ⟨rfl, id⟩
  obtain ⟨responses, notices⟩ := (s.link.post n).transmit_sheds s.cmd.draining
  exact ⟨post.1 ▸ responses, notices ∘ post.2, .refl _⟩

theorem dropTag_sheds (tag : Word16) (s : State) : Sheds s (dropTag tag s) :=
  ⟨le_rfl, id, List.filter_sublist⟩

theorem modPort_sheds (p : PortId) (f : Port → Port) (s : State) : Sheds s (s.modPort p f) := ⟨le_rfl, id, .refl _⟩

/-- From `s` to `t` the engine of port `p` worked: it left the port lawful if `before` held of it, and kept its
bounds. -/
structure EngineWork (p : PortId) (s t : State) (before : Port → Prop := Port.Lawful) : Prop where
  work : PortWork p s t
  sheds : Sheds s t
  lawful : before (s.port p) → (t.port p).Lawful
  bounded : (s.port p).Bounded → (t.port p).Bounded

theorem EngineWork.refl (p : PortId) (s : State) : EngineWork p s s := ⟨.refl p s, .refl s, id, id⟩

theorem EngineWork.trans {p : PortId} {s t u : State} {before : Port → Prop} (h : EngineWork p s t before)
    (k : EngineWork p t u) : EngineWork p s u before :=
  ⟨h.work.trans k.work, h.sheds.trans k.sheds, k.lawful ∘ h.lawful, k.bounded ∘ h.bounded⟩

theorem EngineWork.weaken {p : PortId} {s t : State} {before before' : Port → Prop} (h : EngineWork p s t before')
    (k : before (s.port p) → before' (s.port p)) : EngineWork p s t before :=
  ⟨h.work, h.sheds, h.lawful ∘ k, h.bounded⟩

theorem Port.Lawful.refresh {q : Port} (h : q.Lawful) : q.refresh.Lawful := h.leave {}
theorem Port.Bounded.refresh {q : Port} (h : q.Bounded) : q.refresh.Bounded := h.leave {}

/-- A change of the port that makes it lawful and keeps its bounds. -/
theorem modPort_engine {p : PortId} {f : Port → Port} {s : State} {before : Port → Prop}
    (lawful : before (s.port p) → (f (s.port p)).Lawful) (bounded : (s.port p).LeavesBounds (f (s.port p))) :
    EngineWork p s (s.modPort p f) before :=
  ⟨modPort_work p f s, modPort_sheds p f s, fun h => by rw [s.modPort_port_same]; exact (lawful h).refresh,
    fun h => by rw [s.modPort_port_same]; exact (h.leave bounded).refresh⟩

/-- A change of the port that the laws and bounds do not see. -/
theorem modPort_leaves {p : PortId} {f : Port → Port} {s : State} (laws : (s.port p).LeavesLaws (f (s.port p)))
    (bounds : (s.port p).LeavesBounds (f (s.port p))) : EngineWork p s (s.modPort p f) :=
  modPort_engine (fun h => h.leave laws) bounds

theorem postNotice_engine (p : PortId) (n : Notice) (s : State) : EngineWork p s (postNotice n s) :=
  ⟨postNotice_work p n s, postNotice_sheds n s, id, id⟩

theorem dropTag_engine (p : PortId) (tag : Word16) (s : State) : EngineWork p s (dropTag tag s) :=
  ⟨dropTag_work p tag s, dropTag_sheds tag s, id, id⟩

theorem nextWork_engine (p : PortId) (s : State) : EngineWork p s (s.modPort p Port.nextWork) :=
  modPort_engine Port.Lawful.nextWork (Port.nextWork_leavesBounds _)

theorem modStation_engine (p : PortId) (a : Addr) {f : Station → Station} (s : State)
    (hf : ∀ e, (f e).addr = e.addr := by exact fun _ => rfl) :
    EngineWork p s (s.modPort p fun q => q.modStation a f) :=
  modPort_leaves {} (Port.modStation_leavesBounds _ a hf)

theorem endExchange_engine (p : PortId) (s : State) :
    EngineWork p s (s.modPort p Port.endExchange) fun q => q.TimerInService := modPort_engine .endExchange {}

theorem updateStation_engine (p : PortId) (a : Addr) {f : Station → Station} (hf : ∀ e, (f e).addr = e.addr)
    (c : StationCause) (s : State) : EngineWork p s (updateStation p a f c s) := by
  unfold updateStation
  split
  · exact .refl p s
  · dsimp only
    split
    · exact modStation_engine p a s hf
    · exact (modStation_engine p a s hf).trans (postNotice_engine p _ _)

theorem tableCompletion_engine (p : PortId) (t : Txn) (o : TxnOutcome) (s : State) :
    EngineWork p s (tableCompletion p t o s) := by
  unfold tableCompletion
  split
  · exact .refl p s
  · exact updateStation_engine p _ (fun e => e.complete_addr _ _) _ s

theorem finish_engine (p : PortId) (t : Txn) (o : TxnOutcome) (used : Nat) (r : Option (List Byte)) (s : State) :
    EngineWork p s (finish p t o used r s) :=
  ((postNotice_engine p _ s).trans (dropTag_engine p _ _)).trans (tableCompletion_engine p t o _)

theorem finishAll_engine (p : PortId) (o : TxnOutcome) (ts : List Txn) (s : State) :
    EngineWork p s (finishAll p o ts s) := by
  unfold finishAll
  induction ts generalizing s with
  | nil => exact .refl p s
  | cons t ts ih => exact (finish_engine p t o 0 none s).trans (ih _)

theorem completeRun_engine (p : PortId) (r : TxnRun) (o : TxnOutcome) (s : State) :
    EngineWork p s (completeRun p r o s) fun q => q.TimerInService :=
  (endExchange_engine p s).trans (finish_engine p _ o _ _ _)

theorem completeAndDecide_engine (p : PortId) (r : TxnRun) (o : TxnOutcome) (s : State) :
    EngineWork p s (completeAndDecide p r o s) fun q => q.TimerInService :=
  (completeRun_engine p r o s).trans (nextWork_engine p _)

/-- A port in service with no window open, whatever the rest of its exchange. -/
structure Port.Serving (q : Port) : Prop where
  service : q.state.inService = true
  closed : q.claim ≠ .window

theorem Port.Serving.timer {q : Port} (h : q.Serving) : q.TimerInService := fun out => by simp [h.service] at out

theorem Port.Lawful.serving {q : Port} (h : q.Lawful) (work : q.inFlight ≠ none) : q.Serving :=
  ⟨h.inService work, fun e => work (h.alone e)⟩

theorem failAttempt_engine (p : PortId) (r : TxnRun) (c : FailCause) (s : State) :
    EngineWork p s (failAttempt p r c s) Port.Serving := by
  unfold failAttempt
  dsimp only
  generalize hf : (fun q : Port => ({ q with
    counters := { q.counters with attemptsFailed := satInc q.counters.attemptsFailed },
    line := q.line.endExchange } : Port)) = counted
  have first : EngineWork p s (s.modPort p counted) fun _ => False := modPort_engine False.elim (by subst hf; exact {})
  have serves (h : (s.port p).Serving) : ((s.modPort p counted).port p).Serving := by
    rw [s.modPort_port_same]; subst hf; exact ⟨h.service, h.closed⟩
  have line : ((s.modPort p counted).port p).line.driver ≠ .driving ∧
      ((s.modPort p counted).port p).line.turnaround = none := by
    rw [s.modPort_port_same]; subst hf; exact ⟨LineIf.endExchange_driver _, rfl⟩
  obtain ⟨mid, hmid⟩ : ∃ mid, mid = s.modPort p counted := ⟨_, rfl⟩
  rw [← hmid] at first serves line ⊢
  have rest : EngineWork p mid (if r.used < r.limit then
      mid.modPort p fun q => Port.beginIfIdle
        { q with inFlight := some ⟨c.retryPhase, .txn { r with lastFailure := some c }⟩ }
      else completeAndDecide p { r with lastFailure := some c, reply := none } c.outcome mid) Port.Serving := by
    split
    · refine modPort_engine (fun h => Port.Lawful.beginIfIdle (.of_waiting rfl ?_ h.service h.closed line.1 line.2))
        (.trans {} (Port.beginIfIdle_leavesBounds _))
      cases c <;> simp [FailCause.retryPhase]
    · exact (completeAndDecide_engine p _ _ mid).weaken Port.Serving.timer
  exact ⟨first.work.trans rest.work, first.sheds.trans rest.sheds, rest.lawful ∘ serves, rest.bounded ∘ first.bounded⟩

theorem endSweep_engine (p : PortId) (w : Sweep) (how : SweepEnd) (s : State) :
    EngineWork p s (endSweep p w how s) := (modPort_leaves {} {}).trans (postNotice_engine p _ _)

theorem chooseThreshold_engine (p : PortId) (w : Sweep) (s : State) : EngineWork p s (chooseThreshold p w s) := by
  unfold chooseThreshold
  dsimp only
  split
  · exact (modStation_engine p _ s).trans (endSweep_engine p w _ _)
  · exact endSweep_engine p w _ s

theorem abandonSweep_engine (p : PortId) (c : SweepCause) (s : State) : EngineWork p s (abandonSweep p c s) := by
  unfold abandonSweep
  split
  · exact .refl p s
  · exact endSweep_engine p _ _ s

theorem settleSweep_engine (p : PortId) (s : State) : EngineWork p s (settleSweep p s) := by
  unfold settleSweep
  split
  · split
    · exact chooseThreshold_engine p _ _
    · exact .refl p _
  · exact .refl p _

theorem endProbe_engine (p : PortId) (r : ProbeRun) (pass : Bool) (s : State) :
    EngineWork p s (endProbe p r pass s) fun q => q.TimerInService := by
  have recorded : EngineWork p s (s.modPort p fun q => q.recordProbe r pass) fun q => q.TimerInService :=
    modPort_engine (fun h => .endExchange h) {}
  exact (recorded.trans (settleSweep_engine p _)).trans (nextWork_engine p _)

theorem failExchange_engine (p : PortId) (c : FailCause) (s : State) : EngineWork p s (failExchange p c s) := by
  unfold failExchange
  split
  · exact .refl p s
  · next hq =>
    split
    · exact (failAttempt_engine p _ c s).weaken fun h => h.serving (by simp [hq])
    · exact (endProbe_engine p _ _ s).weaken Port.Lawful.timer

theorem endInFlight_engine (p : PortId) (o : TxnOutcome) (s : State) : EngineWork p s (endInFlight p o s) := by
  unfold endInFlight
  split
  · exact .refl p s
  · split
    · exact (completeRun_engine p _ o s).weaken Port.Lawful.timer
    · exact (endExchange_engine p s).weaken Port.Lawful.timer

theorem quarantineInFlight_engine (p : PortId) (a : Addr) (s : State) :
    EngineWork p s (quarantineInFlight p a s) := by
  unfold quarantineInFlight
  split
  · exact endInFlight_engine p _ s
  · exact .refl p s

theorem quarantineQueue_engine (p : PortId) (a : Addr) (s : State) : EngineWork p s (quarantineQueue p a s) :=
  (modPort_leaves {} { queue := List.filter_sublist }).trans (finishAll_engine p _ _ _)

theorem quarantineSweep_engine (p : PortId) (a : Addr) (s : State) : EngineWork p s (quarantineSweep p a s) := by
  unfold quarantineSweep
  split
  · split
    · exact abandonSweep_engine p _ s
    · exact .refl p s
  · exact .refl p s

theorem quarantineEntry_engine (p : PortId) (a : Addr) (s : State) : EngineWork p s (quarantineEntry p a s) := by
  have steps :=
    ((quarantineInFlight_engine p a s).trans (quarantineQueue_engine p a _)).trans (quarantineSweep_engine p a _)
  unfold quarantineEntry
  dsimp only
  split
  · exact steps.trans (nextWork_engine p _)
  · exact steps

theorem countStray_engine (p : PortId) (s : State) : EngineWork p s (s.modPort p Port.countStray) :=
  modPort_leaves {} {}

theorem strike_engine (p : PortId) (a : Addr) (s : State) : EngineWork p s (strike p a s) := by
  unfold strike
  split
  · exact countStray_engine p s
  · split
    · exact modStation_engine p a s
    · split
      · exact ((modStation_engine p a s).trans (postNotice_engine p _ _)).trans
          (quarantineEntry_engine p a _)
      · exact .refl p s

theorem Port.sampleActive_leavesLaws (q : Port) : q.LeavesLaws q.sampleActive := by
  unfold Port.sampleActive
  split <;> exact {}

theorem Port.sampleActive_leavesBounds (q : Port) : q.LeavesBounds q.sampleActive := by
  unfold Port.sampleActive
  split <;> exact {}

theorem takeStart_engine (p : PortId) (l : Bool) (s : State) : EngineWork p s (s.modPort p fun q => q.takeStart l) :=
  modPort_engine (fun h => (h.leave (Port.sampleActive_leavesLaws _)).leave {})
    (.trans (Port.sampleActive_leavesBounds _) {})

theorem startBit_engine (p : PortId) (l : Bool) (s : State) : EngineWork p s (startBit p l s) := by
  unfold startBit
  dsimp only
  split
  · exact (takeStart_engine p l s).trans (failExchange_engine p _ _)
  · exact takeStart_engine p l s

theorem lateReport_engine (p : PortId) (a : Addr) (s : State) :
    EngineWork p s (s.modPort p fun q => q.lateReport a) := by
  by_cases known : ((s.port p).station a).isSome = true
  · have : (s.port p).lateReport a = (s.port p).modStation a fun e => { e with late := satInc e.late } := by
      simp [Port.lateReport, known]
    exact modPort_leaves (this ▸ {}) (this ▸ Port.modStation_leavesBounds _ a fun _ => rfl)
  · have : (s.port p).lateReport a = (s.port p).countStray := by simp [Port.lateReport, known]
    exact modPort_leaves (this ▸ {}) (this ▸ {})

theorem outsideHead_engine (p : PortId) (k : FrameKind) (a : Addr) (s : State) :
    EngineWork p s (outsideHead p k a s) := by
  unfold outsideHead
  split
  · exact countStray_engine p s
  · split
    · exact countStray_engine p s
    · split
      · exact lateReport_engine p a s
      · exact strike_engine p a s

/-- The reply head moves the exchange from AWAITING to RECEIVING. -/
theorem receiving_engine {p : PortId} {s : State} {f : InFlight} (work : (s.port p).inFlight = some f)
    (awaits : f.phase = .awaiting) (w : Work) :
    EngineWork p s (s.modPort p fun q => { q with inFlight := some ⟨.receiving, w⟩ }) := by
  refine modPort_engine (fun h => ?_) {}
  have phase : (s.port p).phase = some .awaiting := by simp [Port.phase, work, awaits]
  have serves := h.serving (by simp [work])
  exact ⟨fun _ => serves.service, fun e => absurd e serves.closed, h.timer,
    ⟨fun e => absurd e (h.driver_of_phase (by simp [phase])),
     fun e => absurd (h.turnaround_of_phase (by simp [phase])) e⟩, fun _ => h.late (by simp [phase])⟩

theorem headTaken_engine (p : PortId) (k : FrameKind) (a : Addr) (s : State) :
    EngineWork p s (headTaken p k a s) := by
  unfold headTaken
  split
  · exact outsideHead_engine p k a s
  · next f work =>
    split
    · next awaits =>
      unfold windowHead
      split
      · exact (countStray_engine p s).trans (failExchange_engine p _ _)
      · split
        · exact receiving_engine work awaits _
        · exact (strike_engine p a s).trans (failExchange_engine p _ _)
    · exact outsideHead_engine p k a s

theorem countTaken_engine (p : PortId) (n : Byte) (s : State) : EngineWork p s (countTaken p n s) := by
  unfold countTaken
  split
  · exact .refl p s
  · next work =>
    split
    · split
      · exact (failAttempt_engine p _ _ s).weaken fun h => h.serving (by simp [work])
      · exact .refl p s
    · exact .refl p s

theorem reportNoise_engine (p : PortId) (r : FrameRec) (s : State) : EngineWork p s (reportNoise p r s) := by
  unfold reportNoise
  split
  · exact modStation_engine p _ s
  · exact .refl p s

theorem judgeFrame_engine (p : PortId) (e : Ending) (g : Bool) (r : FrameRec) (s : State) :
    EngineWork p s (judgeFrame p e g r s) := by
  unfold judgeFrame
  split
  · exact .refl p _
  · next work =>
    split
    · split
      · split
        · exact (completeAndDecide_engine p _ _ _).weaken Port.Lawful.timer
        · exact (failAttempt_engine p _ _ _).weaken fun h => h.serving (by simp [work])
      · exact (endProbe_engine p _ _ _).weaken Port.Lawful.timer
    · exact .refl p _

theorem setAssembler_engine (p : PortId) (a : Assembler) (s : State) :
    EngineWork p s (s.modPort p fun q => q.setAssembler a) := modPort_leaves {} {}

theorem openFrame_engine (p : PortId) (c : RxChar) (s : State) : EngineWork p s (openFrame p c s) :=
  (setAssembler_engine p _ s).trans (headTaken_engine p _ _ _)

theorem endFrame_engine (p : PortId) (e : Ending) (r : FrameRec) (s : State) : EngineWork p s (endFrame p e r s) :=
  (setAssembler_engine p _ s).trans ((reportNoise_engine p r _).trans (judgeFrame_engine p e _ r _))

theorem assemble_engine (p : PortId) (c : RxChar) (s : State) : EngineWork p s (assemble p c s) := by
  unfold assemble
  split
  · split
    · exact openFrame_engine p c s
    · exact .refl p s
  · split
    · exact (endFrame_engine p _ _ s).trans (openFrame_engine p c _)
    · unfold addCharacter
      dsimp only
      split
      · split
        · exact (setAssembler_engine p _ s).trans (countTaken_engine p _ _)
        · exact endFrame_engine p _ _ s
      · exact setAssembler_engine p _ s
      · exact setAssembler_engine p _ s
      · exact endFrame_engine p _ _ s

/-- A reply timeout sets the late-reply record of a port whose exchange it then ends. -/
theorem replyTimeout_engine (p : PortId) (s : State) : EngineWork p s (replyTimeout p s) := by
  unfold replyTimeout
  split
  · exact .refl p s
  · next f work =>
    obtain ⟨mid, hmid⟩ : ∃ mid, mid = s.modPort p fun q => { q with lateReply := f.work.target } := ⟨_, rfl⟩
    have first : EngineWork p s mid fun _ => False := hmid ▸ modPort_engine False.elim {}
    have work' : (mid.port p).inFlight = some f := by rw [hmid, s.modPort_port_same]; exact work
    have serves (h : (s.port p).Lawful) : (mid.port p).Serving := by
      have := h.serving (by simp [work])
      rw [hmid, s.modPort_port_same]
      exact ⟨this.service, this.closed⟩
    have rest : EngineWork p mid (failExchange p .noReply mid) Port.Serving := by
      unfold failExchange
      rw [work']
      dsimp only
      split
      · exact failAttempt_engine p _ _ mid
      · exact (endProbe_engine p _ _ mid).weaken Port.Serving.timer
    rw [← hmid]
    exact ⟨first.work.trans rest.work, first.sheds.trans rest.sheds, rest.lawful ∘ serves,
      rest.bounded ∘ first.bounded⟩

theorem yieldToStart_engine (p : PortId) (s : State) : EngineWork p s (yieldToStart p s) := by
  unfold yieldToStart
  split
  · exact modPort_leaves (Port.sampleActive_leavesLaws _) (Port.sampleActive_leavesBounds _)
  · exact .refl p s

theorem endCharacter_engine (p : PortId) (c : RxChar) (s : State) :
    EngineWork p s (s.modPort p fun q => q.endCharacter c) := by
  have laws (q : Port) : q.LeavesLaws (q.endCharacter c) ∧ q.LeavesBounds (q.endCharacter c) := by
    unfold Port.endCharacter
    dsimp only
    split
    · have k := q.sampleActive_leavesLaws
      have b := q.sampleActive_leavesBounds
      exact ⟨⟨k.state, k.phase, k.claim, k.timer, k.late, k.driver, k.turnaround⟩, ⟨b.queue, b.stations, b.run⟩⟩
    · exact ⟨{}, {}⟩
  exact modPort_leaves (laws _).1 (laws _).2

theorem takeCharacter_engine (p : PortId) (c : RxChar) (s : State) : EngineWork p s (takeCharacter p c s) := by
  unfold takeCharacter
  dsimp only
  have taken := (endCharacter_engine p c s).trans (assemble_engine p c _)
  split
  · exact taken.trans (replyTimeout_engine p _)
  · exact taken

/-- A frame sent whole opens the reply window of an exchange in SENDING, or completes it. -/
theorem frameSent_engine {p : PortId} {s : State} (sending : (s.port p).phase = some .sending) (w : Work) :
    EngineWork p s (frameSent p w s) := by
  have sent : EngineWork p s (s.modPort p Port.countSent) :=
    modPort_leaves { driver := fun h => by simp [Port.countSent, LineIf.sent] at h } { run := Nat.zero_le _ }
  have phase : ((s.modPort p Port.countSent).port p).phase = some .sending := by
    rw [s.modPort_port_same]; exact sending
  have opened (th : Port → Threshold) : EngineWork p (s.modPort p Port.countSent)
      ((s.modPort p Port.countSent).modPort p fun q => q.openReply w (th q)) := by
    refine modPort_engine (fun h => ?_) {}
    have serves := h.serving fun e => by rw [Port.phase, e] at phase; cases phase
    refine ⟨fun _ => serves.service, fun e => absurd e serves.closed, h.timer, ⟨fun e => ?_, fun _ => rfl⟩,
      fun _ => h.late (.inl phase)⟩
    simp [Port.openReply, Port.countSent, LineIf.sent] at e
  unfold frameSent
  dsimp only
  split
  · split
    · exact sent.trans (opened _)
    · exact sent.trans ((completeAndDecide_engine p _ _ _).weaken Port.Lawful.timer)
  · exact sent.trans (opened _)

end Sys2Proof.Machine

/-! SUPPORT. What the moves of a port, the flush, the fault, the window and the trim unit keep of these laws. -/

namespace Sys2Proof.Machine

/-! ### Moves of the port state -/

theorem QuickTimer.inState_of_out {t : QuickTimer} {st : PortState} (out : st.inService = false) :
    t.inState st = .stopped := by simp [QuickTimer.inState, out]

/-- A move to a state in service, or of a port with no work, keeps the laws. -/
theorem moveTo_engine {p : PortId} {st : PortState} {s : State} (c : TransCause)
    (free : (s.port p).Lawful → st.inService = true ∨ (s.port p).inFlight = none) :
    EngineWork p s (moveTo p st c s) := by
  refine EngineWork.trans (modPort_engine (fun h => ?_) {}) (postNotice_engine p _ _)
  have timer : Port.TimerInService { s.port p with state := st, timer := (s.port p).timer.inState st } :=
    fun out => QuickTimer.inState_of_out out
  rcases free h with service | work
  · exact ⟨fun _ => service, h.alone, timer, h.line, h.late⟩
  · exact .of_no_work work (h.driver_of_no_work work) (h.turnaround_of_no_work work) timer

theorem moveTo_sheds (p : PortId) (st : PortState) (c : TransCause) (s : State) : Sheds s (moveTo p st c s) :=
  (modPort_sheds p _ s).trans (postNotice_sheds _ _)

theorem flush_sheds (p : PortId) (c : FlushCause) (s : State) : Sheds s (flush p c s) :=
  (((endInFlight_engine p _ s).sheds.trans (modPort_sheds p _ _)).trans (finishAll_engine p _ _ _).sheds).trans
    (abandonSweep_engine p _ _).sheds

theorem moveTo_port (p : PortId) (st : PortState) (c : TransCause) (s : State) :
    (moveTo p st c s).port p = Port.refresh { s.port p with state := st, timer := (s.port p).timer.inState st } := by
  simp [moveTo]

/-- Ended work leaves a line at rest. -/
theorem Port.Lawful.withoutWork {q : Port} (driver : q.inFlight = none → q.line.driver ≠ .driving)
    (turnaround : q.inFlight = none → q.line.turnaround = none) (timer : q.TimerInService) : q.withoutWork.Lawful := by
  unfold Port.withoutWork
  split
  · next work => exact .of_no_work work (driver work) (turnaround work) timer
  · exact .endExchange timer

theorem Port.withoutWork_leavesBounds (q : Port) : q.LeavesBounds q.withoutWork := by
  unfold Port.withoutWork
  split <;> exact {}

/-- A move with the flush of everything in work keeps the laws, whatever the new state. -/
theorem flushInto_engine (p : PortId) (st : PortState) (tc : TransCause) (c : FlushCause) (s : State) :
    EngineWork p s (flush p c (moveTo p st tc s)) := by
  obtain ⟨-, -, own⟩ := flush_spec p c (moveTo p st tc s)
  refine ⟨(moveTo_work p st tc s).trans (flush_work p c _), (moveTo_sheds p st tc s).trans (flush_sheds p c _),
    fun h => ?_, fun h => ?_⟩
  · have moved : ((moveTo p st tc s).port p).withoutWork.Lawful := by
      rw [moveTo_port]
      exact .withoutWork (fun work => h.driver_of_no_work work) (fun work => h.turnaround_of_no_work work)
        fun out => QuickTimer.inState_of_out out
    rw [own]
    exact (moved.leave { late := fun _ => rfl }).refresh
  · have moved : ((moveTo p st tc s).port p).Bounded := by rw [moveTo_port]; exact h.leave {}
    rw [own]
    exact ((moved.leave (Port.withoutWork_leavesBounds _)).leave { queue := List.nil_sublist _ }).refresh

/-- What a withdrawal writes beside the claim: the mailbox, the spoil watch and a disconnected driver (R24). -/
theorem Port.withdraw_leaves (q : Port) : q.LeavesLaws q.withdraw ∧ q.LeavesBounds q.withdraw := by
  unfold Port.withdraw
  split
  · exact ⟨{}, {}⟩
  all_goals
    refine ⟨{ claim := nofun, driver := ?_ }, {}⟩
    dsimp only
    split
    · exact nofun
    · exact id

/-- The receiver switched off, its driver released or disabled, after a withdrawal. -/
theorem withdrawOff_engine (p : PortId) {driver : Driver} (still : driver ≠ .driving) (s : State) :
    EngineWork p s (s.modPort p fun q => { q.withdraw with line := q.withdraw.line.switchOff driver }) := by
  have laws := (s.port p).withdraw_leaves.1
  have bounds := (s.port p).withdraw_leaves.2
  exact modPort_leaves
    ⟨laws.state, laws.phase, laws.claim, laws.timer, laws.late, fun h => absurd h still, fun h => absurd rfl h⟩
    ⟨bounds.queue, bounds.stations, bounds.run⟩

theorem enterFault_engine (p : PortId) (c : FaultCause) (tc : TransCause) (s : State) :
    EngineWork p s (enterFault p c tc s) :=
  (flushInto_engine p _ tc _ s).trans (withdrawOff_engine p (driver := .disabled) nofun _)

theorem disablePort_engine (p : PortId) (s : State) : EngineWork p s (disablePort p s) :=
  (flushInto_engine p _ _ _ s).trans (withdrawOff_engine p (driver := .released) nofun _)

theorem Port.handOver_leaves (p : PortId) (k : CalKind) (o : CalOrigin) (q : Port) :
    q.LeavesLaws (q.handOver p k o) ∧ q.LeavesBounds (q.handOver p k o) := ⟨{ claim := nofun }, {}⟩

/-- A port reset after its flush: the claim withdrawn, the run cleared, a receiver that was off switched on. -/
theorem Port.restart_leaves (p : PortId) (wasOn : Bool) (q : Port) :
    q.LeavesLaws (Port.handOver p .full .auto { q.withdraw with
      collisionRun := 0, line := if wasOn then q.withdraw.line else q.withdraw.line.switchOn }) ∧
    q.LeavesBounds (Port.handOver p .full .auto { q.withdraw with
      collisionRun := 0, line := if wasOn then q.withdraw.line else q.withdraw.line.switchOn }) := by
  obtain ⟨laws, bounds⟩ := q.withdraw_leaves
  refine ⟨?_, ⟨bounds.queue, bounds.stations, Nat.zero_le _⟩⟩
  cases wasOn
  · exact ⟨laws.state, laws.phase, (fun e => nomatch e), laws.timer, laws.late, (fun e => nomatch e),
      fun e => absurd rfl e⟩
  · exact ⟨laws.state, laws.phase, (fun e => nomatch e), laws.timer, laws.late, laws.driver, laws.turnaround⟩

theorem resetPort_engine (p : PortId) (s : State) : EngineWork p s (resetPort p s) := by
  have flushed := flushInto_engine p (.trimming .full) .reset .reset s
  unfold resetPort
  generalize flush p .reset (moveTo p (.trimming .full) .reset s) = mid at flushed ⊢
  exact flushed.trans (modPort_leaves (Port.restart_leaves p _ _).1 (Port.restart_leaves p _ _).2)

theorem collide_engine (p : PortId) (s : State) : EngineWork p s (collide p s) := by
  have counted : EngineWork p s (s.modPort p Port.countCollision) :=
    ⟨modPort_work p _ s, modPort_sheds p _ s,
      fun h => by rw [s.modPort_port_same]; exact (h.leave { driver := fun e => by cases e }).refresh,
      fun h => by
        rw [s.modPort_port_same]
        exact ⟨h.fits, h.ordered, h.table, Nat.min_le_left _ _⟩⟩
  unfold collide
  dsimp only
  split
  · exact counted.trans (enterFault_engine p _ _ _)
  · exact counted.trans (failExchange_engine p _ _)

/-! ### Messages of the trim unit -/

/-- The table of R26 names only states in service, and FAULTED. -/
theorem PortState.outcomeMove_target {st st' : PortState} {o : WindowOutcome} {tc : TransCause}
    (move : st.outcomeMove o = some (st', tc)) : st'.inService = true ∨ st' = .faulted .trim := by
  unfold PortState.outcomeMove at move
  split at move <;> cases move <;> simp [PortState.inService]

theorem windowMove_engine (p : PortId) (o : WindowOutcome) (s : State) : EngineWork p s (windowMove p o s) := by
  unfold windowMove
  split
  · exact .refl p s
  · exact (modPort_leaves { claim := fun e => by cases e } {}).trans (enterFault_engine p _ _ _)
  · next st tc notFault move =>
    refine moveTo_engine tc fun _ => .inl ?_
    exact (PortState.outcomeMove_target move).resolve_right fun e => notFault _ e

theorem Port.Lawful.restartTimer {q : Port} (h : q.Lawful) : q.restartTimer.Lawful := by
  unfold Port.restartTimer
  split
  · next service => exact ⟨h.inService, h.alone, fun out => by simp [service] at out, h.line, h.late⟩
  · exact h

theorem tellSweep_engine (p : PortId) (s : State) : EngineWork p s (tellSweep p s) := by
  unfold tellSweep
  split
  · exact .refl p s
  · split
    · exact modPort_leaves {} {}
    · exact abandonSweep_engine p _ s

theorem finalOutcome_engine (p : PortId) (o : WindowOutcome) (k : CalKind) (ch : Bool) (s : State) :
    EngineWork p s (finalOutcome p o k ch s) := by
  have restarted (s : State) : EngineWork p s (s.modPort p fun q =>
      Port.restartTimer { q with counters := q.counters.afterWindow k o }) := by
    refine modPort_engine (fun h => Port.Lawful.restartTimer (h.leave {})) ?_
    unfold Port.restartTimer
    split <;> exact {}
  unfold finalOutcome
  dsimp only
  split
  · exact ((windowMove_engine p o s).trans (restarted _)).trans (tellSweep_engine p _)
  · exact (windowMove_engine p o s).trans (restarted _)

theorem takeWindowEnd_engine (p : PortId) (n : Byte) (o : WindowOutcome) (k : CalKind) (ch : Bool) (s : State) :
    EngineWork p s (takeWindowEnd p n o k ch s) := by
  have acknowledged (s : State) : EngineWork p s (s.modPort p fun q =>
      { q with toTrim := q.toTrim ++ [.acknowledge n] }) := modPort_leaves {} {}
  unfold takeWindowEnd
  split
  · split
    · exact acknowledged s
    · exact (finalOutcome_engine p o k ch s).trans (acknowledged _)
  · exact .refl p s

theorem takeUpgrade_engine (p : PortId) (s : State) : EngineWork p s (takeUpgrade p s) := by
  unfold takeUpgrade
  dsimp only
  split
  · next quick =>
    exact (modPort_leaves {} {}).trans
      (moveTo_engine _ fun h => .inr (h.no_work (by rw [quick]; rfl)))
  · exact modPort_leaves {} {}

theorem PortState.out_of_trimming {st : PortState} (h : st.isTrimming = true) : st.inService = false := by
  cases st <;> simp_all [PortState.isTrimming, PortState.inService]

theorem takeGrant_engine (p : PortId) (s : State) : EngineWork p s (s.modPort p Port.takeGrant) := by
  refine modPort_engine (fun h => ?_) ?_
  · have granted : Port.Lawful { s.port p with claim := .granted } := h.leave { claim := nofun }
    unfold Port.takeGrant
    split
    · dsimp only
      split
      · next trimming => exact granted.openWindow (h.no_work (PortState.out_of_trimming trimming))
      · exact granted.nextWork
    · exact h
  · unfold Port.takeGrant
    split
    · dsimp only
      split
      · exact {}
      · exact .trans {} (Port.nextWork_leavesBounds _)
    · exact {}

theorem takeClosure_engine (p : PortId) (requeued : Bool) (s : State) :
    EngineWork p s (s.modPort p fun q => q.takeClosure requeued) := by
  refine modPort_engine (fun h => ?_) ?_
  · unfold Port.takeClosure
    split
    · refine Port.Lawful.nextWork (h.leave { claim := ?_, driver := ?_ })
      · dsimp only; split <;> exact nofun
      · dsimp only
        split
        · exact nofun
        · exact id
    · exact h
  · unfold Port.takeClosure
    split
    · exact .trans {} (Port.nextWork_leavesBounds _)
    · exact {}

/-! ### The quick-cal timer -/

theorem QuickTimer.pass_eq_stopped {t : QuickTimer} {n : Nat} (h : t = .stopped) : t.pass n = .stopped := by
  rw [h]; rfl

/-- Only a running timer runs out, and a timer runs only in service. -/
theorem Port.Lawful.expire {q : Port} (h : q.Lawful) (p : PortId) (runs : q.timer ≠ .stopped) :
    (q.expire p).Lawful := by
  have service : q.state.inService = true := by
    by_contra out
    exact runs (h.timer (by simpa using out))
  have expired : Port.Lawful { q with timer := .expired } :=
    ⟨h.inService, h.alone, fun out => by simp [service] at out, h.line, h.late⟩
  unfold Port.expire
  dsimp only
  split
  · exact expired.leave { claim := nofun }
  · exact expired

theorem Port.expire_leavesBounds (p : PortId) (q : Port) : q.LeavesBounds (q.expire p) := by
  unfold Port.expire
  dsimp only
  split <;> exact {}

theorem Port.Lawful.pass {q : Port} (h : q.Lawful) (p : PortId) (n : Nat) (closing : Bool) :
    (q.pass p n closing).Lawful := by
  have later : Port.Lawful { q with timer := q.timer.pass n } := h.leave { timer := QuickTimer.pass_eq_stopped }
  unfold Port.pass
  dsimp only
  split
  · next out =>
    refine later.expire p ?_
    rcases ht : q.timer with _ | ms | _ <;> simp [ht, QuickTimer.runsOutWithin] at out ⊢
  · exact later

theorem Port.pass_leavesBounds (p : PortId) (n : Nat) (closing : Bool) (q : Port) :
    q.LeavesBounds (q.pass p n closing) := by
  unfold Port.pass
  dsimp only
  split
  · exact .trans {} (Port.expire_leavesBounds p _)
  · exact {}

theorem takeInterval_engine (p : PortId) (s : State) : EngineWork p s (s.modPort p Port.takeInterval) := by
  unfold Port.takeInterval
  refine modPort_leaves ?_ ?_
  · split
    · exact {}
    · exact { timer := fun h => by rw [h]; rfl }
  · split <;> exact {}

/-! ### What the operations of the trim unit keep -/

/-- The drift record and the interval are as before. -/
structure TrimUnit.SameDrift (u v : TrimUnit) : Prop where
  dT : v.dT = u.dT := by rfl
  dV : v.dV = u.dV := by rfl
  interval : v.interval = u.interval := by rfl

/-- From `s` to `t` the trim unit worked, kept its drift record and law 2. -/
structure UnitWork (s t : State) : Prop where
  work : TrimWork s t
  sheds : Sheds s t
  drift : s.trim.SameDrift t.trim
  alone : s.trim.QueueAlone → t.trim.QueueAlone

theorem UnitWork.refl (s : State) : UnitWork s s := ⟨.refl s, .refl s, {}, id⟩

theorem UnitWork.trans {s t u : State} (h : UnitWork s t) (k : UnitWork t u) : UnitWork s u :=
  ⟨h.work.trans k.work, h.sheds.trans k.sheds,
    ⟨k.drift.dT.trans h.drift.dT, k.drift.dV.trans h.drift.dV, k.drift.interval.trans h.drift.interval⟩,
    k.alone ∘ h.alone⟩

/-- Work that leaves the trim unit as it was. -/
theorem UnitWork.of_same {s t : State} (work : TrimWork s t) (sheds : Sheds s t) (same : t.trim = s.trim) :
    UnitWork s t := ⟨work, sheds, same ▸ {}, same ▸ id⟩

theorem setTrim_unitWork {s : State} {u : TrimUnit} (drift : s.trim.SameDrift u)
    (alone : s.trim.QueueAlone → u.QueueAlone) : UnitWork s (s.setTrim u) :=
  ⟨setTrim_trimWork s u, ⟨le_rfl, id, .refl _⟩, drift, alone⟩

theorem modPort_unitWork {p : PortId} {f : Port → Port} {s : State}
    (same : SameEngine (s.port p) (f (s.port p)).refresh) : UnitWork s (s.modPort p f) :=
  .of_same (modPort_trimWork p f s same) (modPort_sheds p f s) rfl

theorem sendPort_unitWork (p : PortId) (m : TrimMsg) (s : State) : UnitWork s (sendPort p m s) :=
  .of_same (sendPort_trimWork p m s) (modPort_sheds p _ s) rfl

theorem dropPortMsg_unitWork (p : PortId) (s : State) : UnitWork s (dropPortMsg p s) :=
  .of_same (dropPortMsg_trimWork p s) (modPort_sheds p _ s) rfl

theorem setCodes_unitWork (p : PortId) (t : Trim) (s : State) : UnitWork s (setCodes p t s) :=
  .of_same (setCodes_trimWork p t s) (modPort_sheds p _ s) rfl

theorem reportCal_unitWork (r : Request) (o : CalOutcome) (s : State) : UnitWork s (reportCal r o s) := by
  unfold reportCal
  split
  · exact .of_same (postNotice_trimWork _ s) (postNotice_sheds _ s) rfl
  · exact .refl s

theorem grantHead_unitWork (s : State) : UnitWork s (grantHead s) := by
  unfold grantHead
  split
  · next r rest free hq =>
    refine UnitWork.trans (setTrim_unitWork {} fun h => ?_) (sendPort_unitWork _ _ _)
    obtain ⟨distinct, -⟩ := h
    rw [hq, List.map_cons, List.nodup_cons] at distinct
    exact ⟨distinct.2, fun h' e => by cases e; exact distinct.1⟩
  · exact .refl s

theorem enterTail_unitWork {r : Request} {s : State} (fresh : r.port ∉ s.trim.queue.map Request.port)
    (free : ∀ h, s.trim.holder = some h → h.request.port ≠ r.port) : UnitWork s (enterTail r s) := by
  refine UnitWork.trans (setTrim_unitWork {} fun ⟨distinct, held⟩ => ⟨?_, fun h hh => ?_⟩) (grantHead_unitWork _)
  · simpa [List.nodup_append, distinct] using fun x hx (e : x.port = r.port) => fresh (List.mem_map.2 ⟨x, hx, e⟩)
  · simpa using ⟨by simpa using held h hh, free h hh⟩

/-- The reference is not held for the port. -/
theorem TrimUnit.holderOf_eq_none {u : TrimUnit} {p : PortId} :
    u.holderOf p = none ↔ ∀ h, u.holder = some h → h.request.port ≠ p := by
  simp [TrimUnit.holderOf, Option.filter_eq_none_iff]

/-- The port has no request in the queue. -/
theorem TrimUnit.queuedOf_eq_none {u : TrimUnit} {p : PortId} :
    u.queuedOf p = none ↔ ∀ r ∈ u.queue, r.port ≠ p := by
  simp [TrimUnit.queuedOf]

theorem takeRequest_unitWork (r : Request) (s : State) : UnitWork s (takeRequest r s).2 := by
  unfold takeRequest
  split
  · exact .refl s
  · next notHeld =>
    split
    · split
      · refine UnitWork.trans (setTrim_unitWork {} fun h => ?_) (sendPort_unitWork _ _ _)
        have same : (s.trim.queue.map fun e => if e.port = r.port then e.upgrade r.origin else e).map Request.port =
            s.trim.queue.map Request.port := by
          rw [List.map_map]
          refine List.map_congr_left fun e _ => ?_
          simp only [Function.comp_apply]
          split <;> rfl
        simpa only [TrimUnit.QueueAlone, same] using h
      · exact .refl s
    · next absent =>
      refine enterTail_unitWork ?_ (TrimUnit.holderOf_eq_none.1 (by simpa using notHeld))
      simpa using TrimUnit.queuedOf_eq_none.1 absent

/-- The holder's phase changes and its request stays. -/
theorem TrimUnit.QueueAlone.rephase {u : TrimUnit} {h : Holder} (held : u.holder = some h) (phase : HolderPhase)
    (k : u.QueueAlone) : ({ u with holder := some ⟨h.request, phase⟩ } : TrimUnit).QueueAlone :=
  ⟨k.1, fun _ e => by cases e; exact k.2 h held⟩

theorem endWindow_unitWork {h : Holder} {s : State} (held : s.trim.holder = some h) (start : Trim)
    (o : WindowOutcome) (ch : Bool) : UnitWork s (endWindow h.request start o ch s) := by
  refine UnitWork.trans ?_ (sendPort_unitWork _ _ _)
  refine UnitWork.trans (setTrim_unitWork {} fun k => k.rephase held _) (modPort_unitWork ?_)
  constructor <;> first | rfl | exact id

theorem TrimUnit.QueueAlone.release {u : TrimUnit} (k : u.QueueAlone) {queue : List Request}
    (shrinks : queue.Sublist u.queue) {holder : Option Holder} (fewer : ∀ h, holder = some h → u.holder = some h) :
    ({ u with queue := queue, holder := holder } : TrimUnit).QueueAlone :=
  ⟨k.1.sublist (shrinks.map _), fun h e hmem => k.2 h (fewer h e) ((shrinks.map _).subset hmem)⟩

/-- The holder's request leaves, and stands again at the tail of `queue` if it does at all. -/
theorem TrimUnit.QueueAlone.requeue {u : TrimUnit} (k : u.QueueAlone) {h : Holder} (held : u.holder = some h)
    {r : Request} (same : r.port = h.request.port) :
    ({ u with queue := u.queue ++ [r], holder := none } : TrimUnit).QueueAlone := by
  obtain ⟨distinct, alone⟩ := k
  refine ⟨?_, fun _ e => by cases e⟩
  simpa [List.nodup_append, distinct] using fun x hx (e : x.port = r.port) =>
    alone h held (List.mem_map.2 ⟨x, hx, e.trans same⟩)

theorem closeWindow_unitWork {h : Holder} {s : State} (held : s.trim.holder = some h) (o : WindowOutcome) :
    UnitWork s (closeWindow h.request o s) := by
  have final (m : State) : UnitWork m (grantHead (sendPort h.request.port (.closure h.request.number false)
      (m.setTrim { m.trim with holder := none, queue := m.trim.queue }))) :=
    (setTrim_unitWork (u := { m.trim with holder := none, queue := m.trim.queue }) {}
      fun k => k.release (.refl _) fun _ e => nomatch e).trans
      ((sendPort_unitWork _ _ _).trans (grantHead_unitWork _))
  cases o with
  | spoiled =>
    exact (setTrim_unitWork {} fun k => k.requeue held
        (r := { h.request with attempt := h.request.attempt + 1 }) rfl).trans
      ((sendPort_unitWork _ _ _).trans (grantHead_unitWork _))
  | done | rail | failed => exact (reportCal_unitWork _ _ s).trans (final _)

theorem takeWithdrawal_unitWork (p : PortId) (n : Byte) (s : State) : UnitWork s (takeWithdrawal p n s) := by
  unfold takeWithdrawal
  split
  · next h _ =>
    dsimp only
    have rest (m : State) : UnitWork m (grantHead (reportCal h.request .abandoned
        ((m.modPort p Port.abandonWindow).setTrim { (m.modPort p Port.abandonWindow).trim with holder := none }))) :=
      ((modPort_unitWork (abandonWindow_same _)).trans
        (setTrim_unitWork {} fun k => k.release (.refl _) fun _ e => by cases e)).trans
        ((reportCal_unitWork _ _ _).trans (grantHead_unitWork _))
    rcases h.phase with _ | start | start
    · exact rest s
    · exact (setCodes_unitWork p start s).trans (rest _)
    · exact (setCodes_unitWork p start s).trans (rest _)
  · split
    · refine ((setTrim_unitWork {} fun k => ?_).trans (reportCal_unitWork _ _ _)).trans (grantHead_unitWork _)
      exact k.release List.filter_sublist fun _ => id
    · exact .refl s

theorem takeWindowOpen_unitWork (p : PortId) (n : Byte) (s : State) : UnitWork s (takeWindowOpen p n s) := by
  unfold takeWindowOpen
  split
  · exact .refl s
  · next h held =>
    obtain ⟨held, -⟩ := Option.filter_eq_some_iff.1 held
    refine ((setTrim_unitWork {} fun k => k.rephase held _).trans (setCodes_unitWork p _ _)).trans
      (modPort_unitWork ?_)
    split
    · constructor <;> first | rfl | (intro h; cases h)
    · constructor <;> first | rfl | exact id

theorem takeAcknowledgement_unitWork (p : PortId) (n : Byte) (s : State) :
    UnitWork s (takeAcknowledgement p n s) := by
  unfold takeAcknowledgement
  split
  · exact .refl s
  · next h held =>
    split
    · split
      · exact closeWindow_unitWork held _
      · exact .refl s
      · exact .refl s
    · exact .refl s

theorem takePortMsg_unitWork (p : PortId) (m : PortMsg) (s : State) : UnitWork s (takePortMsg p m s) := by
  cases m with
  | request r => exact takeRequest_unitWork r s
  | windowOpen n => exact takeWindowOpen_unitWork p n s
  | acknowledge n => exact takeAcknowledgement_unitWork p n s
  | withdraw n => exact takeWithdrawal_unitWork p n s

theorem drainPort_unitWork (p : PortId) (s : State) : UnitWork s (drainPort p s) := by
  unfold drainPort
  generalize (s.port p).toTrim = ms
  induction ms generalizing s with
  | nil => exact .refl s
  | cons m ms ih => exact ((dropPortMsg_unitWork p s).trans (takePortMsg_unitWork p m _)).trans (ih _)

theorem takeSpoil_unitWork (p : PortId) (n : Byte) (s : State) : UnitWork s (takeSpoil p n s) := by
  unfold takeSpoil
  split
  · exact .refl s
  · next h held =>
    split
    · split
      · exact (setCodes_unitWork p _ s).trans (endWindow_unitWork (h := h) (s := setCodes p _ s) held _ _ _)
      · exact .refl s
      · exact .refl s
    · exact .refl s

theorem takeComparison_unitWork (a : Comparison) (s : State) : UnitWork s (takeComparison a s) := by
  unfold takeComparison
  split
  · exact .refl s
  · next h held =>
    split
    · split
      · exact .refl s
      · exact (setTrim_unitWork {} fun k => k.rephase held _).trans (setCodes_unitWork _ _ _)
      · exact (setCodes_unitWork _ _ s).trans (endWindow_unitWork (h := h) (s := setCodes _ _ s) held _ _ _)
    · exact .refl s
    · exact .refl s

end Sys2Proof.Machine

/-! SUPPORT. What a whole command keeps: one lemma per command, and `exec_cases`, which says them at once. -/

namespace Sys2Proof.Machine

/-! ### What a command keeps of the whole hub -/

/-- From `q` to `r` a port kept its laws and its bounds, and its computed records were left alone or brought up to
date. -/
structure Port.Kept (q r : Port) : Prop where
  current : r = q ∨ ∃ u : Port, r = u.refresh
  lawful : q.Lawful → r.Lawful
  bounded : q.Bounded → r.Bounded

theorem Port.Kept.refl (q : Port) : q.Kept q := ⟨.inl rfl, id, id⟩

theorem Port.Kept.trans {q r u : Port} (h : q.Kept r) (k : r.Kept u) : q.Kept u where
  current := by
    rcases k.current with e | ⟨v, e⟩
    · exact e ▸ h.current
    · exact .inr ⟨v, e⟩
  lawful := k.lawful ∘ h.lawful
  bounded := k.bounded ∘ h.bounded

theorem Port.Kept.refresh {q r : Port} (lawful : q.Lawful → r.Lawful) (bounds : q.LeavesBounds r) :
    q.Kept r.refresh := ⟨.inr ⟨r, rfl⟩, fun h => (lawful h).refresh, fun h => (h.leave bounds).refresh⟩

/-- From `s` to `t` every port was kept, and so were the places of the host link, the live tags, the reference queue
and the drift record, but for up to `answered` more responses. -/
structure HubWork (answered : Nat) (s t : State) : Prop where
  pending : t.pending = s.pending
  ports : ∀ p, (s.port p).Kept (t.port p)
  inbound : s.link.inbound.length ≤ Config.inboundPlaces → t.link.inbound.length ≤ Config.inboundPlaces
  responses : t.link.responses.length ≤ s.link.responses.length + answered
  notices : s.link.notices.length ≤ Config.noticePlaces → t.link.notices.length ≤ Config.noticePlaces
  tags : s.TagsDistinct → t.TagsDistinct
  alone : s.trim.QueueAlone → t.trim.QueueAlone
  drift : s.trim.SameDrift t.trim

theorem HubWork.refl (s : State) : HubWork 0 s s :=
  ⟨rfl, fun _ => .refl _, id, le_rfl, id, id, id, {}⟩

theorem HubWork.trans {m n : Nat} {s t u : State} (h : HubWork m s t) (k : HubWork n t u) : HubWork (m + n) s u where
  pending := k.pending.trans h.pending
  ports := fun p => (h.ports p).trans (k.ports p)
  inbound := k.inbound ∘ h.inbound
  responses := by have := h.responses; have := k.responses; omega
  notices := k.notices ∘ h.notices
  tags := k.tags ∘ h.tags
  alone := k.alone ∘ h.alone
  drift := ⟨k.drift.dT.trans h.drift.dT, k.drift.dV.trans h.drift.dV, k.drift.interval.trans h.drift.interval⟩

/-- The work of one port engine. -/
theorem EngineWork.hub {p : PortId} {s t : State} (h : EngineWork p s t) : HubWork 0 s t where
  pending := h.work.pending
  ports := fun i => by
    by_cases e : i = p
    · rw [e]; exact ⟨h.work.own, h.lawful, h.bounded⟩
    · rw [h.work.others i e]; exact .refl _
  inbound := by rw [h.work.inbound]; exact id
  responses := h.sheds.responses
  notices := h.sheds.notices
  tags := fun distinct => distinct.sublist (h.sheds.live.map _)
  alone := h.work.trim ▸ id
  drift := h.work.trim ▸ {}

theorem SameEngine.leavesLaws {q r : Port} (h : SameEngine q r) : q.LeavesLaws r where
  state := h.state
  phase := by rw [Port.phase, Port.phase, h.inFlight]
  claim := h.claim ▸ id
  timer := h.timer ▸ id
  late := h.lateReply ▸ id
  driver := h.driving
  turnaround := h.turnaround ▸ id

theorem SameEngine.leavesBounds {q r : Port} (h : SameEngine q r) : q.LeavesBounds r where
  queue := h.queue ▸ .refl _
  stations := h.stations ▸ .refl _
  run := h.collisionRun ▸ le_rfl

/-- The work of the trim unit. -/
theorem UnitWork.hub {s t : State} (h : UnitWork s t) : HubWork 0 s t where
  pending := h.work.pending
  ports := fun p => ⟨h.work.current p, fun l => l.leave (h.work.engines p).leavesLaws,
    fun b => b.leave (h.work.engines p).leavesBounds⟩
  inbound := by rw [h.work.inbound]; exact id
  responses := h.sheds.responses
  notices := h.sheds.notices
  tags := fun distinct => distinct.sublist (h.sheds.live.map _)
  alone := h.alone
  drift := h.drift

/-- Work on the ports alone. -/
theorem mapPorts_hub {s : State} {f : PortId → Port → Port} (lawful : ∀ p, (s.port p).Lawful → (f p (s.port p)).Lawful)
    (bounds : ∀ p, (s.port p).LeavesBounds (f p (s.port p))) : HubWork 0 s (s.mapPorts f) where
  pending := rfl
  ports := fun p => by rw [s.mapPorts_port]; exact .refresh (lawful p) (bounds p)
  inbound := id
  responses := le_rfl
  notices := id
  tags := id
  alone := id
  drift := {}

/-- Work on the host link alone. -/
theorem HubWork.of_link {n : Nat} {s t : State} (pending : t.pending = s.pending) (ports : ∀ p, t.port p = s.port p)
    (cmd : t.cmd.live = s.cmd.live) (trim : t.trim = s.trim)
    (inbound : s.link.inbound.length ≤ Config.inboundPlaces → t.link.inbound.length ≤ Config.inboundPlaces)
    (responses : t.link.responses.length ≤ s.link.responses.length + n)
    (notices : s.link.notices.length ≤ Config.noticePlaces → t.link.notices.length ≤ Config.noticePlaces) :
    HubWork n s t :=
  ⟨pending, fun p => ports p ▸ .refl _, inbound, responses, notices, by unfold State.TagsDistinct; rw [cmd]; exact id,
    trim ▸ id, trim ▸ {}⟩

theorem postNotice_hub (n : Notice) (s : State) : HubWork 0 s (postNotice n s) := (postNotice_engine 0 n s).hub

theorem popFrame_hub (s : State) : HubWork 0 s s.popFrame :=
  .of_link rfl (fun _ => rfl) rfl rfl (fun h => by simp only [State.popFrame_inbound, List.length_tail]; omega)
      le_rfl id

theorem postResponse_hub (r : Response) (s : State) : HubWork 1 s (postResponse r s) := by
  refine .of_link rfl (fun _ => rfl) rfl rfl (by rw [postResponse_inbound]; exact id) ?_
    (by rw [postResponse_notices]; exact id)
  simpa [postResponse] using (Link.transmit_sheds { s.link with responses := s.link.responses ++ [r] } s.cmd.draining).1

theorem respond_hub (f : HostFrame) (r : Result) (d : List Byte) (s : State) : HubWork 1 s (respond f r d s) :=
  postResponse_hub _ s

/-! ### When a command is taken -/

theorem whenRunning_hub {s : State} {f : State → State} (run : HubWork 0 s (f s)) : HubWork 0 s (whenRunning s f) := by
  rcases whenRunning_cases s f with ⟨-, e⟩ | ⟨-, e⟩
  · rw [e]; exact .refl s
  · rw [e]; exact run

theorem whenReceiving_hub {p : PortId} {s : State} {f : State → State} (run : EngineWork p s (f s)) :
    HubWork 0 s (whenReceiving p s f) := by
  refine whenRunning_hub ?_
  split
  · exact .refl s
  · exact run.hub

theorem whenHunting_hub {s : State} {f : State → State} (run : HubWork 0 s (f s)) : HubWork 0 s (whenHunting s f) := by
  refine whenRunning_hub ?_
  split
  · exact run
  · exact .refl s

/-- What a host command can do: nothing, or to answer one frame that it can take. -/
def HostWork (s t : State) : Prop := HubWork 0 s t ∨ ∃ f, s.Takes f ∧ HubWork 1 s t

theorem takeFrameIf_host {s : State} {mine : HostFrame → Bool} {run : HostFrame → State → State}
    (h : ∀ f, HubWork 1 s.popFrame (run f s.popFrame)) : HostWork s (takeFrameIf mine run s) := by
  rcases takeFrameIf_cases mine run s with e | ⟨f, takes, -, e⟩
  · rw [e]; exact .inl (.refl s)
  · rw [e]; exact .inr ⟨f, takes, (popFrame_hub s).trans (h f)⟩

theorem takeCommand_host {α : Type} {kind : Byte} {parse : List Byte → Parsed α}
    {run : HostFrame → α → State → State} {s : State} (h : ∀ f a, HubWork 1 s.popFrame (run f a s.popFrame)) :
    HostWork s (takeCommand kind parse run s) := by
  refine takeFrameIf_host fun f => ?_
  split
  · exact respond_hub f _ _ _
  · exact h f _

/-- A command that is answered and then works on one port. -/
theorem respond_engine {p : PortId} {f : HostFrame} {r : Result} {d : List Byte} {s t : State}
    (work : EngineWork p (respond f r d s) t) : HubWork 1 s t := (respond_hub f r d s).trans work.hub

/-! ### The host commands -/

theorem enablePort_engine {p : PortId} {s : State} (off : (s.port p).state = .off) (set : Settings) :
    EngineWork p s (enablePort p set s) := by
  have first : EngineWork p s (s.modPort p fun q =>
      { q with settings := set, counters := .zero, collisionRun := 0, line := q.line.switchOn }) :=
    modPort_leaves { driver := (fun e => nomatch e), turnaround := fun e => absurd rfl e } { run := Nat.zero_le _ }
  refine (first.trans (moveTo_engine .enabled fun h => .inr (h.no_work ?_))).trans
    (modPort_leaves (Port.handOver_leaves p .full .auto _).1 (Port.handOver_leaves p .full .auto _).2)
  rw [s.modPort_port_same]
  simp [off, PortState.inService]

theorem Port.dozeIdle_iff (q : Port) : q.dozeIdle = true ↔
    q.queue = [] ∧ q.inFlight = none ∧ q.sweep = none ∧ q.claim = .none := by
  simp [Port.dozeIdle, and_assoc]

theorem enterDoze_engine {p : PortId} {s : State} (work : (s.port p).inFlight = none) :
    EngineWork p s (enterDoze p s) :=
  (moveTo_engine _ fun _ => .inr work).trans
    (modPort_leaves { late := fun _ => rfl, driver := (fun e => nomatch e), turnaround := fun e => absurd rfl e } {})

theorem leaveDoze_engine {p : PortId} {s : State} (dozes : (s.port p).state = .doze) :
    EngineWork p s (leaveDoze p s) :=
  (moveTo_engine _ fun h => .inr (h.no_work (by rw [dozes]; rfl))).trans
    (modPort_leaves { claim := (fun e => nomatch e), driver := (fun e => nomatch e)
                      turnaround := fun e => absurd rfl e }
      {})

theorem doze_hub (f : HostFrame) (a : PortId × DozeDir) (s : State) : HubWork 1 s (doze f a s) := by
  unfold doze
  dsimp only
  split
  · split
    · exact respond_hub ..
    · split
      · exact respond_hub ..
      · next idle =>
        exact respond_engine (enterDoze_engine (((s.port a.1).dozeIdle_iff.1 (by simpa using idle)).2.1))
  · split
    · next dozes => exact respond_engine (leaveDoze_engine dozes)
    · exact respond_hub ..

theorem takeDoze_hub (f : HostFrame) (s : State) : HubWork 1 s (takeDoze f s) := by
  unfold takeDoze
  split
  · exact respond_hub ..
  · exact doze_hub f _ s

theorem calibrate_hub (f : HostFrame) (p : PortId) (k : CalKind) (s : State) : HubWork 1 s (calibrate f p k s) := by
  unfold calibrate
  split
  · exact respond_hub ..
  · split
    · exact respond_hub ..
    · dsimp only
      refine HubWork.trans (m := 1) ?_ (takeRequest_unitWork _ _).hub
      generalize takeRequest _ (drainPort p s) = taken
      refine ((drainPort_unitWork p s).hub.trans (respond_hub f taken.1 [] _)).trans (n := 0) ?_
      split
      · refine (modPort_leaves (p := p) ?_ ?_).hub <;> unfold Port.claimNew <;> split
        · exact { claim := fun e => nomatch e }
        · exact {}
        · exact {}
        · exact {}
      · exact .refl _

theorem stations_append {q : Port} (h : q.Bounded) {e : Station} (absent : q.station e.addr = none)
    (room : q.stations.length < Config.tablePlaces) : Port.Bounded { q with stations := q.stations ++ [e] } := by
  refine ⟨h.fits, h.ordered, ⟨by simpa using room, ?_⟩, h.run⟩
  simp only [Port.station, List.find?_eq_none, beq_iff_eq] at absent
  simpa [List.nodup_append, h.table.2] using absent

theorem Station.create_addr (a : Addr) (th : Option Threshold) : (Station.create a th).addr = a := rfl

theorem addStation_hub (f : HostFrame) (a : PortId × Addr × Option Threshold) (s : State) : HubWork 1 s
    (if ((s.port a.1).station a.2.1).isSome then respond f .stationExists [] s
     else if Config.tablePlaces ≤ (s.port a.1).stations.length then respond f .tableFull [] s
     else (respond f .ok [] s).modPort a.1 fun q =>
       { q with stations := q.stations ++ [Station.create a.2.1 a.2.2] }) := by
  split
  · exact respond_hub ..
  · next absent =>
    split
    · exact respond_hub ..
    · next room =>
      refine respond_engine (p := a.1) ⟨modPort_work .., modPort_sheds .., fun h => ?_, fun h => ?_⟩
      · rw [State.modPort_port_same]; exact (h.leave {}).refresh
      · rw [State.modPort_port_same]
        exact (stations_append h (by simpa [Station.create_addr] using absent) (by simpa using room)).refresh

theorem insertTxn_perm (t : Txn) (queue : List Txn) : (insertTxn t queue).Perm (t :: queue) := by
  unfold insertTxn
  split
  · exact List.perm_append_singleton t queue
  · refine List.perm_middle.trans ?_
    rw [List.takeWhile_append_dropWhile]

/-- What stands before that is EXPEDITED throughout. -/
theorem takeWhile_expedited (queue : List Txn) : ∀ t ∈ queue.takeWhile Txn.isExpedited, t.cls = .expedited := by
  intro t ht
  simpa [Txn.isExpedited] using List.mem_takeWhile_imp ht

theorem insertTxn_ordered (t : Txn) {queue : List Txn}
    (ordered : queue.Pairwise fun a b => a.cls = .normal → b.cls = .normal) :
    (insertTxn t queue).Pairwise fun a b => a.cls = .normal → b.cls = .normal := by
  unfold insertTxn
  split
  · next normal =>
    refine List.pairwise_append.2 ⟨ordered, List.pairwise_singleton .., fun a _ b hb _ => ?_⟩
    rw [List.mem_singleton.1 hb]; exact normal
  · next expedited =>
    refine List.pairwise_append.2 ⟨ordered.sublist (List.takeWhile_sublist _), List.pairwise_cons.2 ⟨?_, ?_⟩, ?_⟩
    · intro b _ h; simp [expedited] at h
    · exact ordered.sublist (List.dropWhile_sublist _)
    · intro a ha b _ h; simp [takeWhile_expedited queue a ha] at h

theorem accept_engine {p : PortId} {s : State} {t : Txn} (room : (s.port p).queue.length < Config.queuePlaces) :
    EngineWork p s (s.modPort p fun q => q.accept t) := by
  have accepted : (s.port p).accept t =
      (if (s.port p).queue.isEmpty then
        Port.nextWork { s.port p with queue := insertTxn ((s.port p).fillAttempts t) (s.port p).queue }
       else { s.port p with queue := insertTxn ((s.port p).fillAttempts t) (s.port p).queue }) := rfl
  have bounded (h : (s.port p).Bounded) :
      Port.Bounded { s.port p with queue := insertTxn ((s.port p).fillAttempts t) (s.port p).queue } :=
    ⟨by simpa [Port.QueueFits, (insertTxn_perm _ _).length_eq] using room, insertTxn_ordered _ h.ordered, h.table,
        h.run⟩
  refine ⟨modPort_work .., modPort_sheds .., fun h => ?_, fun h => ?_⟩
  · rw [State.modPort_port_same, accepted]
    split
    · exact (Port.Lawful.nextWork (h.leave {})).refresh
    · exact (h.leave {}).refresh
  · rw [State.modPort_port_same, accepted]
    split
    · exact ((bounded h).leave (Port.nextWork_leavesBounds _)).refresh
    · exact (bounded h).refresh

/-- What the checks of a SUBMIT have established once they pass (R59). -/
theorem submitCheck_none {s : State} {p : PortId} {t : Txn} (h : submitCheck s p t = none) :
    s.liveTag t.tag = none ∧ (s.port p).queue.length < Config.queuePlaces := by
  unfold submitCheck at h
  dsimp only at h
  split at h
  · cases h
  split at h
  · cases h
  split at h
  · cases h
  next fresh =>
    split at h
    · cases h
    split at h
    · cases h
    next room => exact ⟨by simpa using fresh, Nat.lt_of_not_le room⟩

theorem addTag_hub {tag : Word16} {s : State} (fresh : s.liveTag tag = none) (p : PortId) :
    HubWork 0 s (addTag tag p s) := by
  refine ⟨rfl, fun _ => .refl _, id, le_rfl, id, fun distinct => ?_, id, {}⟩
  have absent : ∀ e ∈ s.cmd.live, e.tag ≠ tag := by simpa [State.liveTag] using fresh
  simpa [State.TagsDistinct, List.nodup_append, distinct] using absent

theorem submit_hub (f : HostFrame) (p : PortId) (t : Txn) (s : State) : HubWork 1 s (submit f p t s) := by
  unfold submit
  split
  · exact respond_hub ..
  · next passed =>
    obtain ⟨fresh, room⟩ := submitCheck_none passed
    exact ((respond_hub f .ok [] s).trans (addTag_hub (s := respond f .ok [] s) fresh p)).trans
      (accept_engine (s := addTag t.tag p (respond f .ok [] s)) room).hub

theorem cancel_hub (f : HostFrame) (tag : Word16) (s : State) : HubWork 1 s (cancel f tag s) := by
  unfold cancel
  split
  · exact respond_hub ..
  · split
    · exact respond_hub ..
    · exact respond_engine ((modPort_leaves {} { queue := List.filter_sublist }).trans (finish_engine ..))

theorem sweepCommand_hub (f : HostFrame) (p : PortId) (a : Addr) (r : ThRange) (s : State) :
    HubWork 1 s (sweepCommand f p a r s) := by
  unfold sweepCommand
  dsimp only
  split
  · exact respond_hub ..
  · split
    · exact respond_hub ..
    · split
      · exact respond_hub ..
      · split
        · exact respond_hub ..
        · exact respond_engine (p := p) (modPort_engine (fun h => Port.Lawful.nextWork (h.leave {}))
            (.trans {} (Port.nextWork_leavesBounds _)))

/-! ### The events of the host link -/

theorem setFramer_hub (f : Framer) (s : State) : HubWork 0 s (setFramer f s) :=
  .of_link rfl (fun _ => rfl) rfl rfl id le_rfl id

theorem abandonFrame_hub (c : LinkCause) (s : State) : HubWork 0 s (abandonFrame c s) :=
  (setFramer_hub .hunt s).trans (postNotice_hub _ _)

theorem takeByte_hub (b : Byte) (s : State) : HubWork 0 s (takeByte b s) := by
  unfold takeByte
  split
  · exact setFramer_hub _ s
  · unfold storeFrame
    split
    · next room =>
      exact .of_link rfl (fun _ => rfl) rfl rfl (fun _ => by simpa [setFramer, Link.setFramer] using room) le_rfl id
    · exact abandonFrame_hub _ s
  · exact abandonFrame_hub _ s

theorem transmit_hub (s : State) :
    HubWork 0 s { s with link := { s.link with tx := .idle }.transmit s.cmd.draining } :=
  .of_link rfl (fun _ => rfl) rfl rfl (by rw [Link.transmit_inbound]; exact id)
    (Link.transmit_sheds { s.link with tx := .idle } _).1 (Link.transmit_sheds { s.link with tx := .idle } _).2

/-! ### Messages and timers -/

theorem takeFromPort_hub (p : PortId) (mine : PortMsg → Bool) (s : State) : HubWork 0 s (takeFromPort p mine s) := by
  refine whenRunning_hub ?_
  split
  · exact .refl s
  · split
    · exact ((dropPortMsg_unitWork p s).trans (takePortMsg_unitWork p _ _)).hub
    · exact .refl s

theorem takeFromTrim_hub {p : PortId} {mine : TrimMsg → Bool} {act : TrimMsg → State → State}
    (acts : ∀ m s, EngineWork p s (act m s)) (s : State) : HubWork 0 s (takeFromTrim p mine act s) := by
  refine whenRunning_hub ?_
  split
  · exact .refl s
  · next m rest _ =>
    have taken : EngineWork p s (s.modPort p fun q => { q with fromTrim := rest }) := modPort_leaves {} {}
    dsimp only
    split
    · split
      · exact taken.hub
      · exact (taken.trans (acts m _)).hub
    · exact .refl s

theorem State.pass_hub (n : Nat) (s : State) : HubWork 0 s (s.pass n) :=
  whenRunning_hub (mapPorts_hub (fun p h => h.pass p n _) fun p => Port.pass_leavesBounds p n _ _)

theorem quickCalExpiry_hub {s : State} (running : s.power = .running) {p : PortId} {ms : Nat}
    (timer : (s.port p).timer = .running ms) (open' : s.closing p = false) :
    HubWork 0 s ((s.pass ms).modPort p (Port.expire p)) := by
  obtain ⟨-, -, -, -, -, ports⟩ := State.pass_spec running ms
  refine (s.pass_hub ms).trans (modPort_engine (fun h => h.expire p ?_) (Port.expire_leavesBounds p _)).hub
  rw [ports, open', Port.pass_counts p timer (.inl le_rfl)]
  simp

/-- The turnaround timer's expiry moves the exchange from TURNAROUND to AWAITING. -/
theorem awaitReply_engine {p : PortId} {s : State} (runs : (s.port p).line.turnaround.isSome = true) :
    EngineWork p s (s.modPort p Port.awaitReply) := by
  refine modPort_engine (fun h => ?_) {}
  have phase : (s.port p).phase = some .turnaround := h.line.2 (by simpa [Option.isSome_iff_ne_none] using runs)
  have serves := h.serving fun e => by rw [Port.phase, e] at phase; cases phase
  exact ⟨fun _ => serves.service, fun e => absurd e serves.closed, h.timer,
    ⟨fun e => absurd e (h.driver_of_phase (by simp [phase])), fun e => absurd rfl e⟩, fun _ => h.late (by simp [phase])⟩

/-! ### The commands -/

/-- Every block at its power-on values but for power and the link's rate (R161). -/
structure AtReset (s t : State) : Prop where
  pending : t.pending = s.pending
  ports : ∀ p, t.port p = Port.reset
  inbound : t.link.inbound = []
  responses : t.link.responses = []
  notices : t.link.notices = []
  live : t.cmd.live = []
  trim : t.trim = TrimUnit.reset

theorem State.poweredOn_atReset (s : State) : AtReset s s.poweredOn :=
  ⟨rfl, State.reset_port, rfl, rfl, rfl, rfl, rfl⟩

theorem State.startingUp_atReset (s : State) (c : StartCause) (sel : BitVec 2) : AtReset s (s.startingUp c sel) :=
  ⟨rfl, State.reset_port, rfl, rfl, rfl, rfl, rfl⟩

/-- The commands that put every block at its power-on values. -/
def ResetsHub (c : Instr) : Prop :=
  c = .powerOn ∨ c = .resetNAssert ∨ (∃ sel, c = .resetNRelease sel) ∨ ∃ sel, c = .hubResetCarriedOut sel

/-- SET_DRIFT past the common checks: `d` is in range, and the trim unit takes it once the frame is answered. -/
def TakesDrift (s t : State) : Prop :=
  ∃ f d m, s.Takes f ∧ parseDrift f.body = .ok d ∧ HubWork 1 s m ∧ t = takeDrift d.1 d.2 m

/-- What a command that is no reset can do to the hub: little that a response more, or the taking of a drift record. -/
abbrev CommandWork (s t : State) : Prop := HostWork s t ∨ TakesDrift s t

theorem setDrift_work (s : State) : CommandWork s (takeCommand 0x04 parseDrift
    (fun f d s => takeDrift d.1 d.2 (respond f .ok (leNat (intervalOf d.1 d.2)) s)) s) := by
  rcases takeFrameIf_cases _ _ s with e | ⟨f, takes, -, e⟩
  · rw [takeCommand, e]; exact .inl (.inl (.refl s))
  · rw [takeCommand, e]
    rcases parsed : parseDrift f.body with r | d
    · exact .inl (.inr ⟨f, takes, (popFrame_hub s).trans (respond_hub ..)⟩)
    · exact .inr ⟨f, d, _, takes, parsed, (popFrame_hub s).trans (respond_hub ..), rfl⟩

/-- The host commands. -/
theorem exec_host {s t : State} {c : Instr} (run : exec c s = .next t) (mine : c ∈ [.identify, .hubStatus, .hubReset,
    .portEnable, .portDisable, .portReset, .portStatus, .setTermination, .dozeEnter, .dozeLeave, .calibrate,
    .addStation, .removeStation, .releaseStation, .setThreshold, .stationStatus, .sweep, .submit, .cancel, .queueList,
    .unknownCommand]) : HostWork s t := by
  simp only [List.mem_cons, List.not_mem_nil, or_false] at mine
  rcases mine with rfl | rfl | rfl | rfl | rfl | rfl | rfl | rfl | rfl | rfl | rfl | rfl | rfl | rfl | rfl | rfl | rfl |
    rfl | rfl | rfl | rfl <;> cases run
  · exact takeCommand_host fun f _ => respond_hub ..
  · exact takeCommand_host fun f _ => respond_hub ..
  · refine takeCommand_host fun f _ => ?_
    refine HubWork.trans (m := 0) ?_ (respond_hub ..)
    exact .of_link rfl (fun _ => rfl) rfl rfl id le_rfl id
  · refine takeCommand_host fun f a => ?_
    split
    · next off => exact respond_engine (enablePort_engine (by simpa using off) _)
    · exact respond_hub ..
  · refine takeCommand_host fun f p => ?_
    split
    · exact respond_hub ..
    · exact respond_engine (disablePort_engine p _)
  · refine takeCommand_host fun f p => ?_
    split
    · exact respond_hub ..
    · exact respond_engine (resetPort_engine p _)
  · exact takeCommand_host fun f _ => respond_hub ..
  · refine takeCommand_host fun f a => ?_
    exact HubWork.trans (m := 0) (modPort_leaves (p := a.1) {} {}).hub (respond_hub ..)
  · exact takeFrameIf_host fun f => takeDoze_hub f _
  · exact takeFrameIf_host fun f => takeDoze_hub f _
  · exact takeCommand_host fun f a => calibrate_hub f _ _ _
  · exact takeCommand_host fun f a => addStation_hub f a _
  · refine takeCommand_host fun f a => ?_
    dsimp only
    split
    · exact respond_hub ..
    · split
      · exact respond_hub ..
      · exact respond_engine (p := a.1) (modPort_leaves {} { stations := List.filter_sublist.map _ })
  · refine takeCommand_host fun f a => ?_
    split
    · exact respond_hub ..
    · exact respond_engine (updateStation_engine (f := Station.released) a.1 a.2 (fun _ => rfl) _ _)
  · refine takeCommand_host fun f a => ?_
    dsimp only
    split
    · exact respond_hub ..
    · split
      · exact respond_hub ..
      · exact respond_engine (modStation_engine a.1 a.2.1 _)
  · refine takeCommand_host fun f a => ?_
    split <;> exact respond_hub ..
  · exact takeCommand_host fun f a => sweepCommand_hub f _ _ _ _
  · exact takeCommand_host fun f a => submit_hub f _ _ _
  · exact takeCommand_host fun f tag => cancel_hub f tag _
  · exact takeCommand_host fun f _ => respond_hub ..
  · exact takeFrameIf_host fun f => postResponse_hub ..

/-- The commands of the host link, START_UP_END among them. -/
theorem exec_link {s t : State} {c : Instr} (run : exec c s = .next t)
    (mine : c = .startUpEnd ∨ (∃ b, c = .hostByteReceived b) ∨ c = .charFraming ∨ c = .linkBreak ∨
      c = .hostGapTimeout ∨ c = .txFrameEnd ∨ c = .rxdReturnsHigh) : HubWork 0 s t := by
  rcases mine with rfl | ⟨b, rfl⟩ | rfl | rfl | rfl | rfl | rfl
  case inl =>
    simp only [exec, execStartUpEnd] at run
    split at run <;> cases run
    · refine HubWork.trans (m := 0) ?_ (postNotice_hub ..)
      exact .of_link rfl (fun _ => rfl) rfl rfl id le_rfl id
    · exact .refl s
    · exact .refl s
  all_goals cases run
  · exact whenHunting_hub (takeByte_hub b s)
  · refine whenHunting_hub ?_
    split
    · exact .refl s
    · exact abandonFrame_hub _ s
  · refine whenHunting_hub (HubWork.trans (m := 0) ?_ (abandonFrame_hub ..))
    exact .of_link rfl (fun _ => rfl) rfl rfl id le_rfl id
  · refine whenRunning_hub ?_
    split
    · exact abandonFrame_hub _ s
    · exact .refl s
  · refine whenRunning_hub ?_
    split
    · exact .refl s
    · exact transmit_hub s
  · refine whenRunning_hub ?_
    split
    · exact .of_link rfl (fun _ => rfl) rfl rfl id le_rfl id
    · exact .refl s

theorem EngineWork.ite {p : PortId} {s t : State} {c : Prop} [Decidable c] (run : c → EngineWork p s t) :
    EngineWork p s (if c then t else s) := by
  split
  · next h => exact run h
  · exact .refl p s

/-- The commands of a port's line. -/
theorem exec_line {s t : State} {c : Instr} (p : PortId) (run : exec c s = .next t)
    (mine : (∃ ch, c = .characterReceived p ch) ∨ c = .characterGapExpiry p ∨ c = .lineBecomesIdle p ∨
      c = .frameSent p ∨ c = .collision p ∨ c = .startInTurnaround p ∨ c = .turnaroundExpiry p ∨ c = .replyTimeout p ∨
      c = .stuckLineExpiry p ∨ c = .activeSample p ∨ (∃ l, c = .startBitAccepted p l) ∨ c = .restLevelSample p) :
    HubWork 0 s t := by
  rcases mine with ⟨ch, rfl⟩ | rfl | rfl | rfl | rfl | rfl | rfl | rfl | rfl | rfl | ⟨l, rfl⟩ | rfl <;> cases run <;>
    refine whenReceiving_hub ?_
  · split
    · exact (startBit_engine p false s).trans (takeCharacter_engine p ch _)
    · exact .ite fun _ => takeCharacter_engine p ch s
  · split
    · exact .refl p s
    · exact .ite fun _ => endFrame_engine p _ _ s
  · exact .ite fun _ => modPort_engine (fun h => Port.Lawful.beginIfIdle (h.leave {}))
      (.trans {} (Port.beginIfIdle_leavesBounds _))
  · split
    · exact .refl p s
    · refine .ite fun sends => frameSent_engine ?_ _
      simp only [Port.isSending, Bool.and_eq_true, decide_eq_true_eq] at sends
      exact sends.1
  · exact .ite fun _ => collide_engine p s
  · exact .ite fun _ => startBit_engine p false s
  · exact .ite fun runs => awaitReply_engine runs
  · exact .ite fun _ => (yieldToStart_engine p s).trans (replyTimeout_engine p _)
  · exact .ite fun _ => enterFault_engine p _ _ s
  · exact modPort_leaves (Port.sampleActive_leavesLaws _) (Port.sampleActive_leavesBounds _)
  · exact .ite fun _ => startBit_engine p l s
  · exact modPort_leaves {} {}

/-- The commands of the trim unit and of the quick-cal timers. -/
theorem exec_trim {s t : State} {c : Instr} (p : PortId) (run : exec c s = .next t)
    (mine : c = .quickCalExpiry p ∨ c = .newInterval p ∨ c = .calibrationRequest p ∨ c = .upgrade p ∨ c = .grant p ∨
      c = .windowOpen p ∨ (∃ a, c = .comparisonDecided a) ∨ c = .spoilReport p ∨ c = .windowEnd p ∨
      c = .acknowledgement p ∨ c = .closure p ∨ c = .withdrawal p) : HubWork 0 s t := by
  rcases mine with rfl | rfl | rfl | rfl | rfl | rfl | ⟨a, rfl⟩ | rfl | rfl | rfl | rfl | rfl <;> cases run
  · rcases whenRunning_cases s _ with ⟨-, e⟩ | ⟨running, e⟩ <;> rw [e]
    · exact .refl s
    · split
      · next timer =>
        split
        · exact .refl s
        · next waits => exact quickCalExpiry_hub running timer (by simpa using waits)
      · exact .refl s
      · exact .refl s
  · exact whenRunning_hub (takeInterval_engine p s).hub
  · exact takeFromPort_hub p _ s
  · exact takeFromTrim_hub (fun _ s => takeUpgrade_engine p s) s
  · exact takeFromTrim_hub (fun _ s => takeGrant_engine p s) s
  · exact takeFromPort_hub p _ s
  · exact whenRunning_hub (takeComparison_unitWork a s).hub
  · refine whenRunning_hub ?_
    split
    · exact .refl s
    · exact HubWork.trans (m := 0) (modPort_leaves (p := p) {} {}).hub (takeSpoil_unitWork p _ _).hub
  · refine takeFromTrim_hub (fun m s => ?_) s
    cases m with
    | windowEnd n o k og ch => exact takeWindowEnd_engine p n o k ch s
    | upgraded | granted | closure => exact .refl p s
  · exact takeFromPort_hub p _ s
  · refine takeFromTrim_hub (fun m s => ?_) s
    cases m with
    | closure n requeued => exact takeClosure_engine p requeued s
    | upgraded | granted | windowEnd => exact .refl p s
  · exact takeFromPort_hub p _ s

/-- The resets and the start-ups. -/
theorem exec_resets {s t : State} {c : Instr} (run : exec c s = .next t) (resets : ResetsHub c) :
    t = s ∨ AtReset s t := by
  rcases resets with rfl | rfl | ⟨sel, rfl⟩ | ⟨sel, rfl⟩
  · cases run; exact .inr s.poweredOn_atReset
  · cases run; exact .inr s.poweredOn_atReset
  · simp only [exec, execResetNRelease] at run
    split at run <;> cases run
    · exact .inr (s.startingUp_atReset _ _)
    · exact .inl rfl
    · exact .inl rfl
  · cases run
    split
    · exact .inr (s.startingUp_atReset _ _)
    · exact .inl rfl

/-- Everything a command can do, said once: the invariants are read off from this. -/
theorem exec_cases {s t : State} {c : Instr} (run : exec c s = .next t) :
    HostWork s t ∨ (ResetsHub c ∧ AtReset s t) ∨ (c = .setDrift ∧ TakesDrift s t) := by
  by_cases resets : ResetsHub c
  · rcases exec_resets run resets with rfl | reset
    · exact .inl (.inl (.refl t))
    · exact .inr (.inl ⟨resets, reset⟩)
  cases c
  case powerOn | resetNAssert | resetNRelease | hubResetCarriedOut => simp [ResetsHub] at resets
  case setDrift =>
    cases run
    exact (setDrift_work s).imp_right fun taken => .inr ⟨rfl, taken⟩
  case startUpEnd | hostByteReceived | charFraming | linkBreak | hostGapTimeout | txFrameEnd | rxdReturnsHigh =>
    exact .inl (.inl (exec_link run (by simp)))
  case comparisonDecided => exact .inl (.inl (exec_trim 0 run (by simp)))
  case quickCalExpiry p | newInterval p | calibrationRequest p | upgrade p | grant p | windowOpen p | spoilReport p |
      windowEnd p | acknowledgement p | closure p | withdrawal p =>
    exact .inl (.inl (exec_trim p run (by simp)))
  case characterReceived p _ | characterGapExpiry p | lineBecomesIdle p | frameSent p | collision p |
      startInTurnaround p | turnaroundExpiry p | replyTimeout p | stuckLineExpiry p | activeSample p |
      startBitAccepted p _ | restLevelSample p => exact .inl (.inl (exec_line p run (by simp)))
  all_goals exact .inl (exec_host run (by simp))

end Sys2Proof.Machine

/-! SUPPORT. Every step keeps the invariants: O3, O46 and O56 to O60 read off from what a command can do. -/

namespace Sys2Proof.Machine

/-! ### Every command answers -/

theorem exec_next (c : Instr) (s : State) : ∃ t, exec c s = .next t := by
  cases c
  case startUpEnd =>
    simp only [exec, execStartUpEnd]
    split <;> exact ⟨_, rfl⟩
  case resetNRelease =>
    simp only [exec, execResetNRelease]
    split <;> exact ⟨_, rfl⟩
  all_goals exact ⟨_, rfl⟩

theorem exec_pending {s t : State} {c : Instr} (run : exec c s = .next t) : t.pending = s.pending := by
  rcases exec_cases run with (work | ⟨_, _, work⟩) | ⟨-, reset⟩ | ⟨-, _, _, m, -, -, work, rfl⟩
  · exact work.pending
  · exact work.pending
  · exact reset.pending
  · exact work.pending

/-- Settles O3: a command's function gives a next state in every branch, and none of its work is on the queue. -/
theorem everyCommandAnswersNext : Obligations.EveryCommandAnswersNext := by
  intro c s
  obtain ⟨t, run⟩ := exec_next c s
  exact ⟨t, run, exec_pending run⟩

/-! ### The drift record -/

theorem intervalOf_cases (dT dV : Nat) : intervalOf dT dV =
    if dT = 0 ∧ dV = 0 then 60000
    else if 4000000000 / (1800 * dT + 120 * dV) < 100 then 100
    else if 60000 < 4000000000 / (1800 * dT + 120 * dV) then 60000
    else 4000000000 / (1800 * dT + 120 * dV) := by
  simp only [intervalOf, Config.maxInterval, Config.minInterval, Config.driftBudget, Config.sT, Config.sV]
  generalize 4000000000 / (1800 * dT + 120 * dV) = v
  repeat' split
  all_goals omega

/-- An interval that R131 gives is in its range. -/
theorem intervalOf_inRange (dT dV : Nat) :
    intervalOf dT dV = max Config.minInterval (min Config.maxInterval (intervalOf dT dV)) := by
  unfold intervalOf
  simp only [Config.maxInterval, Config.minInterval]
  split <;> omega

/-- A drift record that the checks let pass is in range. -/
theorem parseDrift_inRange {body : List Byte} {d : Nat × Nat} (parsed : parseDrift body = .ok d) :
    d.1 ≤ Config.maxDT ∧ d.2 ≤ Config.maxDV := by
  match body, parsed with
  | [t0, t1, v0, v1], parsed =>
    simp only [parseDrift, inRange] at parsed
    split at parsed
    · next ok => cases parsed; exact of_decide_eq_true ok
    · cases parsed

theorem takeDrift_port (dT dV : Nat) (s : State) (p : PortId) : (takeDrift dT dV s).port p =
    Port.refresh { s.port p with newIntervals := (s.port p).newIntervals ++ [intervalOf dT dV] } := by
  simp [takeDrift]

theorem takeDrift_kept (dT dV : Nat) (s : State) (p : PortId) : (s.port p).Kept ((takeDrift dT dV s).port p) := by
  rw [takeDrift_port]
  exact .refresh (fun h => h.leave {}) {}

/-- Settles O46: R131's three steps are a case split over the quotient, and only the resets and SET_DRIFT write the
drift record. -/
theorem intervalIsComputedFromTheDrift : Obligations.IntervalIsComputedFromTheDrift := by
  refine ⟨intervalOf_cases, rfl, fun c s t run => ?_⟩
  rcases exec_cases run with (work | ⟨_, _, work⟩) | ⟨resets, reset⟩ | ⟨set, f, d, m, -, -, -, rfl⟩
  · exact .inl ⟨work.drift.interval, work.drift.dT, work.drift.dV⟩
  · exact .inl ⟨work.drift.interval, work.drift.dT, work.drift.dV⟩
  · exact .inr (.inl ⟨resets, by rw [reset.trim]; exact ⟨rfl, rfl, rfl⟩⟩)
  · exact .inr (.inr ⟨set, rfl⟩)

/-! ### What a step can do -/

/-- A step is the work of a command, or a millisecond. -/
theorem step_cases {s t : State} (run : step s = .next t) :
    HubWork 0 s t ∨ ∃ c rest, exec c { s with pending := rest } = .next t := by
  unfold step at run
  split at run
  · cases run; exact .inl (s.pass_hub 1)
  · next c rest _ => exact .inr ⟨c, rest, run⟩

/-- What a step makes of a port: it keeps it, or it resets it. -/
theorem step_port {s t : State} (run : step s = .next t) (p : PortId) :
    (s.port p).Kept (t.port p) ∨ t.port p = Port.reset := by
  rcases step_cases run with work | ⟨c, rest, run⟩
  · exact .inl (work.ports p)
  rcases exec_cases run with (work | ⟨_, _, work⟩) | ⟨-, reset⟩ | ⟨-, _, d, m, -, -, work, rfl⟩
  · exact .inl (work.ports p)
  · exact .inl (work.ports p)
  · exact .inr (reset.ports p)
  · exact .inl ((work.ports p).trans (takeDrift_kept ..))

/-- A property of ports that the kept ports keep and that holds at reset is kept by every step. -/
theorem step_everyPort {P : Port → Prop} (keeps : ∀ {q r : Port}, q.Kept r → P q → P r) (reset : P Port.reset)
    {s t : State} (before : s.EveryPort P) (run : step s = .next t) : t.EveryPort P := by
  intro p
  rcases step_port run p with kept | e
  · exact keeps kept (before p)
  · rw [e]; exact reset

/-! ### The invariants of a port -/

theorem Port.recordsCurrent_reset : Port.reset.RecordsCurrent := by decide

theorem Port.refresh_recordsCurrent (q : Port) : q.refresh.RecordsCurrent := ⟨rfl, rfl⟩

theorem Port.Kept.recordsCurrent {q r : Port} (h : q.Kept r) (before : q.RecordsCurrent) : r.RecordsCurrent := by
  rcases h.current with e | ⟨u, e⟩ <;> rw [e]
  exacts [before, u.refresh_recordsCurrent]

theorem Port.lawful_iff {q : Port} : q.Lawful ↔
    q.InFlightInService ∧ q.WindowAlone ∧ q.TimerInService ∧ q.LineFollowsPhase ∧ q.LateReplyCleared :=
  ⟨fun ⟨service, alone, timer, line, late⟩ => ⟨service, alone, timer, line, late⟩,
    fun ⟨service, alone, timer, line, late⟩ => ⟨service, alone, timer, line, late⟩⟩

theorem Port.bounded_iff {q : Port} : q.Bounded ↔ q.QueueFits ∧ q.QueueOrdered ∧ q.TableFits ∧ q.RunFits :=
  ⟨fun ⟨fits, ordered, table, run⟩ => ⟨fits, ordered, table, run⟩,
    fun ⟨fits, ordered, table, run⟩ => ⟨fits, ordered, table, run⟩⟩

theorem Port.lawful_reset : Port.reset.Lawful :=
  .of_no_work rfl (by decide) rfl fun _ => rfl

theorem Port.bounded_reset : Port.reset.Bounded := Port.bounded_iff.2 (by decide)

theorem Port.selectTermination_of_not_receives {q : Port} (h : q.state.receives = false) :
    q.selectTermination = ⟨.highZ, 0⟩ := by
  simp [Port.selectTermination, h]

theorem Port.selectTermination_of_sending {q : Port} (h : q.phase = some .sending) :
    q.selectTermination = ⟨.highZ, 0⟩ := by
  simp [Port.selectTermination, h]

/-- Settles O56: every change of a port ends in `refresh`, which writes the selection that the records ask for. -/
theorem stepsKeepTheRecordsCurrent : Obligations.StepsKeepTheRecordsCurrent :=
  ⟨fun _ _ => step_everyPort Port.Kept.recordsCurrent Port.recordsCurrent_reset, fun _ current =>
    ⟨fun off => current.1.trans (Port.selectTermination_of_not_receives off),
      fun sends => current.1.trans (Port.selectTermination_of_sending sends)⟩⟩

/-- Settles O57: the laws of an exchange are kept together by every shared operation of a port engine. -/
theorem stepsKeepTheExchangeLawful : Obligations.StepsKeepTheExchangeLawful := by
  simp only [Obligations.StepsKeepTheExchangeLawful, ← Port.lawful_iff]
  refine ⟨fun _ _ => step_everyPort Port.Kept.lawful Port.lawful_reset, ?_⟩
  exact fun _ current line drives => current.1.trans (Port.selectTermination_of_sending (line.1 drives))

/-- Settles O58: a port's queue, table and collision run only grow through their own checks. -/
theorem stepsKeepThePortCapacities : Obligations.StepsKeepThePortCapacities := by
  simp only [Obligations.StepsKeepThePortCapacities, ← Port.bounded_iff]
  exact fun _ _ => step_everyPort Port.Kept.bounded Port.bounded_reset

/-! ### The limits of the hub -/

theorem HubWork.trim {n : Nat} {s t : State} (work : HubWork n s t)
    (before : s.trim.QueueAlone ∧ s.trim.InRange) : t.trim.QueueAlone ∧ t.trim.InRange := by
  obtain ⟨alone, dT, dV, interval⟩ := before
  refine ⟨work.alone alone, ?_, ?_, ?_⟩
  · rw [work.drift.dT]; exact dT
  · rw [work.drift.dV]; exact dV
  · rw [work.drift.interval]; exact interval

/-- Work that answers nothing, and a command's work on a frame that it can take, leave the host link's queues in their
places. -/
theorem HubWork.link {n : Nat} {s t : State} (work : HubWork n s t)
    (room : s.link.responses.length + n ≤ Config.responsePlaces) (before : s.link.Fits) : t.link.Fits :=
  ⟨work.inbound before.1, work.responses.trans room, work.notices before.2.2⟩

theorem State.Takes.room {s : State} {f : HostFrame} (h : s.Takes f) :
    s.link.responses.length + 1 ≤ Config.responsePlaces := h.2.2.1

theorem AtReset.limits {s t : State} (h : AtReset s t) :
    t.link.Fits ∧ t.TagsDistinct ∧ t.trim.QueueAlone ∧ t.trim.InRange := by
  refine ⟨⟨?_, ?_, ?_⟩, ?_, ?_, ?_⟩
  · simp [h.inbound]
  · simp [h.responses]
  · simp [h.notices]
  · simp [State.TagsDistinct, h.live]
  · rw [h.trim]; decide
  · rw [h.trim]; decide

/-- Settles O59: a response enters only behind the check of R156, a notice and a frame only in a free place, a tag only
behind R59's check, and a request only when its port has none; only SET_DRIFT writes the drift record, and in range. -/
theorem stepsKeepTheHubLimits : Obligations.StepsKeepTheHubLimits := by
  rintro s t ⟨link, tags, trim⟩ run
  rcases step_cases run with work | ⟨c, rest, run⟩
  · exact ⟨work.link link.2.1 link, work.tags tags, work.trim trim⟩
  rcases exec_cases run with (work | ⟨f, takes, work⟩) | ⟨-, reset⟩ | ⟨-, f, d, m, takes, parsed, work, rfl⟩
  · exact ⟨work.link link.2.1 link, work.tags tags, work.trim trim⟩
  · exact ⟨work.link takes.room link, work.tags tags, work.trim trim⟩
  · exact reset.limits
  · obtain ⟨dT, dV⟩ := parseDrift_inRange parsed
    exact ⟨work.link takes.room link, work.tags tags, work.alone trim.1, dT, dV, intervalOf_inRange ..⟩

/-- Settles O60: the empty queues and the released lines of reset. -/
theorem resetMeetsEveryInvariant : Obligations.ResetMeetsEveryInvariant := by
  refine ⟨fun p => ?_, by decide, by decide, by decide, by decide⟩
  rw [State.reset_port]
  obtain ⟨service, alone, timer, line, late⟩ := Port.lawful_reset
  obtain ⟨fits, ordered, table, run⟩ := Port.bounded_reset
  exact ⟨Port.recordsCurrent_reset, service, alone, timer, line, late, fits, ordered, table, run⟩

end Sys2Proof.Machine

/-! SUPPORT. Steps, resets, start-up and the host link: O1, O2 and O4 to O11. -/

namespace Sys2Proof.Machine

/-! ### Steps -/

/-- Settles O1: the second branch of `step`. -/
theorem stepRunsFrontCommand : Obligations.StepRunsFrontCommand := by
  intro c rest s queued
  rw [step, queued]

/-- Settles O2: on an empty queue a step is `State.pass 1`, which only a running hub feels. -/
theorem idleStepPassesOneMillisecond : Obligations.IdleStepPassesOneMillisecond := by
  intro s empty
  refine ⟨s.pass 1, by rw [step, empty], fun idle => whenRunning_not idle _, fun running => ?_⟩
  obtain ⟨power, link, cmd, trim, pending, -⟩ := State.pass_spec running 1
  exact ⟨power, link, cmd, trim, pending.trans empty, fun p => State.pass_timePasses running 1 p⟩

/-! ### Resets and start-up -/

/-- Settles O4: both resets give `State.reset`, whose fields are the power-on values. -/
theorem resetsHoldPowerOnValues : Obligations.ResetsHoldPowerOnValues := by
  intro s
  refine ⟨rfl, rfl, rfl, rfl, rfl, rfl, rfl, rfl, rfl, rfl, rfl, rfl, rfl, fun p => ?_⟩
  rw [State.reset_port]
  decide

/-- Settles O5: the IDLE transmitter of a hub that starts up takes HUB_READY at once. -/
theorem startUpEndsWithHubReady : Obligations.StartUpEndsWithHubReady := by
  refine ⟨fun s sel held => ?_, fun s sel c starting link draining => ?_⟩
  · simp only [exec, execResetNRelease, held]
    rfl
  · refine ⟨postNotice (.hubReady c) { s with
        power := .running, link := { s.link with framer := .hunt, gapRunning := false, receiver := .waitHigh } },
      by simp only [exec, execStartUpEnd, starting], rfl, rfl, ⟨rfl, rfl, fun _ => rfl⟩, ?_⟩
    simp only [postNotice, link, draining]
    rfl

/-- A hub that drains takes no frame (R162). -/
theorem takeFrameIf_draining {s : State} (draining : s.cmd.draining = true) (mine : HostFrame → Bool)
    (run : HostFrame → State → State) : takeFrameIf mine run s = s := by
  rcases takeFrameIf_cases mine run s with e | ⟨f, takes, -⟩
  · exact e
  · rw [takes.2.1] at draining
    cases draining

theorem State.resetDue_of {s : State} (running : s.power = .running) (draining : s.cmd.draining = true)
    (sent : s.link.responses = []) (noNotice : ∀ n, s.link.tx ≠ .notice n) : s.resetDue = true := by
  have tx : s.link.tx.noNotice = true := by
    rcases e : s.link.tx with _ | r | n
    · rfl
    · rfl
    · exact absurd e (noNotice n)
  simp [State.resetDue, running, draining, sent, tx]

/-- Settles O6: a hub that drains finds no frame to take, and the reset falls due once the responses have left. -/
theorem hubResetDrainsThenResets : Obligations.HubResetDrainsThenResets := by
  refine ⟨fun s f takes kind body => ?_, fun s draining => ⟨?_, ?_, ?_, ?_⟩,
    fun s sel running draining sent noNotice => ?_⟩
  · refine ⟨_, congrArg Host.Outcome.next
      (takeCommand_ok takes kind (parse := parseEmpty) (a := ()) (by rw [body]; rfl) _), ?_⟩
    obtain ⟨receiver, inbound, answers, silent, -⟩ := postResponse_spec ⟨f.kind + 0x80, f.seq, .ok, []⟩
      { s.popFrame with cmd := { s.popFrame.cmd with draining := true } }
    exact ⟨⟨rfl, rfl, receiver, inbound, answers⟩, silent, rfl, rfl, fun _ => rfl⟩
  · intro row mem
    simp only [hostRows, hostRowsFirst, hostRowsSecond, hostRowsThird, List.cons_append, List.nil_append,
      List.mem_cons, List.not_mem_nil, or_false] at mem
    rcases mem with rfl | rfl | rfl | rfl | rfl | rfl | rfl | rfl | rfl | rfl | rfl | rfl | rfl | rfl | rfl | rfl |
      rfl | rfl | rfl <;> exact congrArg Host.Outcome.next (takeFrameIf_draining draining _ _)
  · exact congrArg Host.Outcome.next (takeFrameIf_draining draining _ _)
  · exact congrArg Host.Outcome.next (takeFrameIf_draining draining _ _)
  · exact congrArg Host.Outcome.next (takeFrameIf_draining draining _ _)
  · simp only [exec, execHubResetCarriedOut, State.resetDue_of running draining sent noNotice, if_true]
    rfl

/-! ### The transmitter -/

theorem Link.transmit_busy {l : Link} (busy : l.tx ≠ .idle) (d : Bool) : l.transmit d = l := by
  unfold Link.transmit
  split
  · next idle => exact absurd idle busy
  · rfl
  · rfl

/-- A notice leaves a queue that was not full, or that has lost nothing. -/
theorem Link.takeNotice_moves {l : Link} {n : Numbered} {rest : List Numbered} (queued : l.notices = n :: rest)
    (free : l.notices.length ≠ 32 ∨ l.lost = 0) : l.takeNotice = { l with notices := rest, tx := .notice n } := by
  have notDue : ¬ (l.notices.length = Config.noticePlaces ∧ l.lost ≠ 0) := fun ⟨full, lost⟩ =>
    free.elim (fun room => room full) lost
  rw [queued] at notDue
  simp only [Link.takeNotice, queued, if_neg notDue]

/-- The place freed in a full queue goes to NOTICES_LOST (R160). -/
theorem Link.takeNotice_refills {l : Link} {n : Numbered} {rest : List Numbered} (queued : l.notices = n :: rest)
    (full : l.notices.length = 32) (lost : l.lost ≠ 0) : l.takeNotice =
      { l with notices := rest ++ [⟨l.nextNotice, .noticesLost l.lost⟩], nextNotice := l.nextNotice + 1, lost := 0
               tx := .notice n } := by
  have due : l.notices.length = Config.noticePlaces ∧ l.lost ≠ 0 := ⟨full, lost⟩
  rw [queued] at due
  simp only [Link.takeNotice, queued, if_pos due, Link.enqueue]

/-- With no response waiting the IDLE transmitter turns to the notices. -/
theorem Link.transmit_notices {l : Link} (idle : l.tx = .idle) (none : l.responses = []) :
    l.transmit false = l.takeNotice := by
  simp [Link.transmit, idle, none]

theorem satInc_eq (c : Word16) : satInc c = if c = 0xFFFF then c else c + 1 := by
  have bound := c.isLt
  split
  · next full => subst full; rfl
  · next free =>
    have small : c.toNat ≠ 65535 := fun e => free (BitVec.eq_of_toNat_eq e)
    apply BitVec.eq_of_toNat_eq
    have one : (1 : Word16).toNat = 1 := rfl
    simp only [satInc, satAdd, BitVec.toNat_ofNat, BitVec.toNat_add, one]
    omega

theorem exec_txFrameEnd {s : State} (running : s.power = .running) (busy : s.link.tx ≠ .idle) :
    exec .txFrameEnd s = .next { s with link := { s.link with tx := .idle }.transmit s.cmd.draining } := by
  simp only [exec, execTxFrameEnd, whenRunning_running running, if_neg busy]

/-- Settles O10: the frame just sent leaves the transmitter IDLE, and R158's choice follows. -/
theorem transmitterTakesResponsesFirst : Obligations.TransmitterTakesResponsesFirst := by
  intro s running busy
  rw [exec_txFrameEnd running busy]
  refine ⟨fun r rest queued => ?_, fun none noNotice => ?_, fun n rest none draining queued => ⟨fun free => ?_,
    fun full lost => ?_⟩⟩
  · simp [Link.transmit, queued]
  · rcases noNotice with draining | empty
    · simp [Link.transmit, none, draining]
    · simp [Link.transmit, Link.takeNotice, none, empty]
  · rw [draining, Link.transmit_notices rfl (by exact none),
      Link.takeNotice_moves (by exact queued) (by exact free)]
  · rw [draining, Link.transmit_notices rfl (by exact none),
      Link.takeNotice_refills (by exact queued) (by exact full) (by exact lost)]

/-- Settles O11: a busy transmitter takes nothing, so posting is what `Link.post` does. -/
theorem postedNoticesAreNumberedOrCounted : Obligations.PostedNoticesAreNumberedOrCounted := by
  intro n s busy
  refine ⟨fun room => ?_, fun full => ?_⟩
  · have post : s.link.post n = s.link.enqueue n := if_pos room
    rw [postNotice, post, Link.transmit_busy (by exact busy)]
    rfl
  · have post : s.link.post n = { s.link with lost := satInc s.link.lost } := if_neg (Nat.not_lt.mpr full)
    rw [postNotice, post, Link.transmit_busy (by exact busy), satInc_eq]

/-! ### The framer -/

theorem exec_hostByteReceived {s : State} (running : s.power = .running) (hunts : s.link.receiver = .hunting)
    (b : Byte) : exec (.hostByteReceived b) s = .next (takeByte b s) := by
  simp only [exec, execHostByteReceived, whenHunting, whenRunning_running running, if_pos hunts]

theorem takeByte_going {s : State} {b : Byte} {f : Framer} (going : s.link.framer.take b = .going f) :
    takeByte b s = setFramer f s := by
  rw [takeByte, going]

theorem takeByte_abandoned {s : State} {b : Byte} {c : LinkCause} (bad : s.link.framer.take b = .abandoned c) :
    takeByte b s = abandonFrame c s := by
  rw [takeByte, bad]

@[simp] theorem setFramer_setFramer (f g : Framer) (s : State) : setFramer f (setFramer g s) = setFramer f s := rfl
@[simp] theorem setFramer_framer (f : Framer) (s : State) : (setFramer f s).link.framer = f := rfl
/-- The framer already in HUNT only has its gap timer stopped. -/
theorem setFramer_hunt {s : State} (hunt : s.link.framer = .hunt) :
    setFramer .hunt s = { s with link := { s.link with gapRunning := false } } := by
  have : s.link.setFramer .hunt = { s.link with gapRunning := false } := by
    rw [Link.setFramer, ← hunt]
    simp [hunt]
  rw [setFramer, this]

/-- One LINK_ERROR, the framer in HUNT with its gap timer stopped, and nothing else of the hub. -/
theorem abandonFrame_spec (c : LinkCause) (s : State) (room : s.RoomFor 1) :
    let t := abandonFrame c s
    t.power = s.power ∧ t.pending = s.pending ∧ SameBlocks s t ∧ t.link.rate = s.link.rate ∧
    t.link.receiver = s.link.receiver ∧ t.link.framer = .hunt ∧ t.link.gapRunning = false ∧
    t.link.inbound = s.link.inbound ∧ t.link.answers = s.link.answers ∧ Reported s t [.linkError c] := by
  intro t
  have posted := (postNotice_posts (.linkError c) (setFramer .hunt s) room).reported
  refine ⟨rfl, rfl, ⟨rfl, rfl, fun _ => rfl⟩, ?_, ?_, ?_, ?_, ?_, ?_, posted⟩
  · exact postNotice_rate ..
  · exact postNotice_receiver ..
  · exact postNotice_framer ..
  · exact postNotice_gapRunning ..
  · exact postNotice_inbound ..
  · exact postNotice_answers ..

/-- Settles O8: each of the three bytes makes the framer abandon its frame, the last one at the full buffer. -/
theorem badBytesAbandonTheFrame : Obligations.BadBytesAbandonTheFrame := by
  intro s b running hunts
  rw [exec_hostByteReceived running hunts]
  refine ⟨fun hunt other => ?_, fun cause room bad => ⟨_, rfl, ?_⟩⟩
  · rw [takeByte_going (f := .hunt) (by rw [hunt, Framer.take, if_neg (show b ≠ Config.sync from other)]),
      setFramer_hunt hunt]
  · have abandoned : takeByte b s = abandonFrame cause s := by
      rcases bad with ⟨rfl, framer, out⟩ | ⟨len, kind, seq, body, low, framer, ⟨rfl, differs⟩ | ⟨rfl, good, full⟩⟩
      · exact takeByte_abandoned (by rw [framer, Framer.take, if_neg (by omega)])
      · exact takeByte_abandoned (by rw [framer, Framer.take, if_neg differs])
      · have stored : s.link.framer.take b = .good ⟨kind, seq, body⟩ := by rw [framer, Framer.take, if_pos good]
        simp only [takeByte, stored]
        exact if_neg (Nat.not_lt.mpr full)
    rw [abandoned]
    exact abandonFrame_spec cause s room

/-- Settles O9: in HUNT the reports are dropped; outside it, and at a break, one LINK_ERROR and HUNT. -/
theorem linkErrorsReturnToHunt : Obligations.LinkErrorsReturnToHunt := by
  refine ⟨fun s running hunt => ⟨fun hunts => ?_, ?_⟩, fun s c cause after running room event => ?_,
    fun s running waits => ?_⟩
  · simp only [exec, execCharFraming, whenHunting, whenRunning_running running, if_pos hunts, if_pos hunt]
  · simp only [exec, execHostGapTimeout, whenRunning_running running, hunt, ne_eq, not_true_eq_false, and_false,
      if_false]
  · rcases event with ⟨rfl, rfl, hunts, rfl, going⟩ | ⟨rfl, rfl, hunts, rfl⟩ | ⟨rfl, rfl, gap, going, rfl⟩
    · refine ⟨abandonFrame .charFraming s, ?_, ?_⟩
      · simp only [exec, execCharFraming, whenHunting, whenRunning_running running, if_pos hunts, if_neg going]
      · simpa only [hunts] using abandonFrame_spec .charFraming s room
    · refine ⟨abandonFrame .brk { s with link := { s.link with receiver := .waitHigh } }, ?_, ?_⟩
      · simp only [exec, execLinkBreak, whenHunting, whenRunning_running running, if_pos hunts]
      · exact abandonFrame_spec .brk { s with link := { s.link with receiver := .waitHigh } } room
    · refine ⟨abandonFrame .gap s, ?_, abandonFrame_spec .gap s room⟩
      simp only [exec, execHostGapTimeout, whenRunning_running running]
      rw [if_pos ⟨gap, going⟩]
  · simp only [exec, execRxdReturnsHigh, whenRunning_running running, if_pos waits]

/-! ### The bytes of a frame -/

theorem runAll_cons {c : Instr} {cs : List Instr} {s t : State} (run : exec c s = .next t) :
    runAll (c :: cs) s = runAll cs t := by
  rw [runAll, run]

/-- The bytes of a BODY, received after `taken`, bring the framer to CHECK_LOW with the whole BODY. -/
theorem runAll_body {s : State} (running : s.power = .running) (hunts : s.link.receiver = .hunting)
    {len kind seq : Byte} {body : List Byte} (length : len.toNat = body.length + 2) (then' : List Instr)
    (taken rest : List Byte) (whole : taken ++ rest = body) :
    runAll (rest.map Instr.hostByteReceived ++ then') (setFramer (Framer.afterBody len kind seq taken) s) =
      runAll then' (setFramer (.checkLow len kind seq body) s) := by
  induction rest generalizing taken with
  | nil =>
    have ended : ¬ taken.length + 2 < len.toNat := by rw [length, ← whole]; simp
    rw [Framer.afterBody, if_neg ended, ← whole, List.append_nil]
    rfl
  | cons b rest ih =>
    have goesOn : taken.length + 2 < len.toNat := by rw [length, ← whole]; simp
    have step : exec (.hostByteReceived b) (setFramer (Framer.afterBody len kind seq taken) s) =
        .next (setFramer (Framer.afterBody len kind seq (taken ++ [b])) s) := by
      refine (exec_hostByteReceived (s := setFramer _ s) running hunts b).trans ?_
      rw [takeByte_going (f := Framer.afterBody len kind seq (taken ++ [b])), setFramer_setFramer]
      rw [setFramer_framer, Framer.afterBody, if_pos goesOn, Framer.take]
    rw [List.map_cons, List.cons_append, runAll_cons step, ih (taken ++ [b]) (by simpa using whole)]

/-- A byte with which the framer goes on. -/
theorem runAll_going {s : State} (running : s.power = .running) (hunts : s.link.receiver = .hunting) {b : Byte}
    {f g : Framer} (going : f.take b = .going g) (cs : List Instr) :
    runAll (.hostByteReceived b :: cs) (setFramer f s) = runAll cs (setFramer g s) := by
  refine runAll_cons ((exec_hostByteReceived (s := setFramer f s) running hunts b).trans ?_)
  rw [takeByte_going (f := g) going, setFramer_setFramer]

/-- The last byte of a good frame stores it. -/
theorem takeByte_good {s : State} {b len kind seq low : Byte} {body : List Byte}
    (framer : s.link.framer = .checkHigh len kind seq body low)
    (good : checkOf (len :: kind :: seq :: body) = word low b) (room : s.link.inbound.length < 4) :
    takeByte b s =
      setFramer .hunt { s with link := { s.link with inbound := s.link.inbound ++ [⟨kind, seq, body⟩] } } := by
  have stored : s.link.framer.take b = .good ⟨kind, seq, body⟩ := by rw [framer, Framer.take, if_pos good]
  simp only [takeByte, stored]
  exact if_pos room

theorem runAll_hostFrameBytes {s : State} {kind seq : Byte} {body : List Byte} (running : s.power = .running)
    (hunts : s.link.receiver = .hunting) (hunt : s.link.framer = .hunt) (room : s.link.inbound.length < 4)
    (fits : body.length ≤ 60) : runAll ((hostFrameBytes kind seq body).map Instr.hostByteReceived) s = .next
      { s with link := { s.link with gapRunning := false, inbound := s.link.inbound ++ [⟨kind, seq, body⟩] } } := by
  obtain ⟨len, hlen⟩ : ∃ len : Byte, len = BitVec.ofNat 8 (body.length + 2) := ⟨_, rfl⟩
  have length : len.toNat = body.length + 2 := by
    rw [hlen, BitVec.toNat_ofNat]
    exact Nat.mod_eq_of_lt (by omega)
  have first : exec (.hostByteReceived Config.sync) s = .next (setFramer .length s) := by
    rw [exec_hostByteReceived running hunts, takeByte_going (f := .length) (by rw [hunt, Framer.take, if_pos rfl])]
  have good : checkOf (len :: kind :: seq :: body) = word (lowByte (checkOf (len :: kind :: seq :: body)))
      (highByte (checkOf (len :: kind :: seq :: body))) := (eq_word_iff ..).2 ⟨rfl, rfl⟩
  simp only [hostFrameBytes, ← hlen, List.map_cons, List.map_append, List.map_nil, List.cons_append]
  generalize lowByte (checkOf (len :: kind :: seq :: body)) = low at good ⊢
  generalize highByte (checkOf (len :: kind :: seq :: body)) = high at good ⊢
  rw [runAll_cons first,
    runAll_going running hunts (g := .kind len) (by rw [Framer.take, if_pos (by omega)]),
    runAll_going running hunts (g := .sequence len kind) rfl,
    runAll_going running hunts (g := Framer.afterBody len kind seq []) rfl,
    runAll_body running hunts length _ [] body rfl,
    runAll_going running hunts (g := .checkHigh len kind seq body low) rfl]
  have last := takeByte_good (s := setFramer (.checkHigh len kind seq body low) s) rfl good room
  refine (runAll_cons ((exec_hostByteReceived (s := setFramer _ s) running hunts high).trans
    (congrArg _ last))).trans ?_
  refine congrArg Host.Outcome.next ?_
  exact setFramer_hunt (s := { s with link := { s.link with inbound := s.link.inbound ++ [⟨kind, seq, body⟩] } }) hunt

/-! ### Bits -/

theorem foldr_bits (b : Byte) : [b.getLsbD 0, b.getLsbD 1, b.getLsbD 2, b.getLsbD 3, b.getLsbD 4, b.getLsbD 5,
    b.getLsbD 6, b.getLsbD 7].foldr (fun bit (acc : Byte) => (acc <<< 1) ||| (if bit then 1 else 0)) 0 = b := by
  revert b
  decide +kernel

/-- The samples of a byte's data bits give the byte back. -/
theorem byteOfBits_eq {b : Byte} {data : Vector Bool 8} (sampled : ∀ i : Fin 8, data.get i = b.getLsbD i.val) :
    byteOfBits data = b := by
  have bits : data.toList = [b.getLsbD 0, b.getLsbD 1, b.getLsbD 2, b.getLsbD 3, b.getLsbD 4, b.getLsbD 5,
      b.getLsbD 6, b.getLsbD 7] := by
    refine List.ext_getElem (by simp) fun i hi _ => ?_
    have small : i < 8 := by simpa using hi
    have := sampled ⟨i, small⟩
    rw [Vector.get_eq_getElem] at this
    simp only [Vector.getElem_toList]
    interval_cases i <;> simpa using this
  rw [byteOfBits, bits]
  exact foldr_bits b

theorem Tx.level_of_bit {tx : Tx} {k : Nat} {bit : Bool} (sent : tx.bits[k]? = some bit) : tx.level k = bit := by
  rw [Tx.level, List.getD_eq_getElem?_getD, sent]
  rfl

theorem Tx.level_after {tx : Tx} {k : Nat} (after : tx.bits.length ≤ k) : tx.level k = true := by
  rw [Tx.level, List.getD_eq_default _ _ after]
  rfl

/-- Settles O7: the bits of a byte both ways, the levels of TXD, and a frame's bytes taken one after another. -/
theorem frameBytesEnterTheBuffer : Obligations.FrameBytesEnterTheBuffer := by
  refine ⟨fun b => ⟨rfl, fun data low sampled => ?_⟩, fun data low => ⟨fun short => ?_, fun long => ?_⟩,
    fun tx => ⟨rfl, fun k bit => Tx.level_of_bit, fun k => Tx.level_after, fun idle k => ?_⟩,
    fun s kind seq body running hunts hunt room fits => runAll_hostFrameBytes running hunts hunt room fits⟩
  · rw [hostByteEvent, if_pos rfl, byteOfBits_eq sampled]
  · rw [hostByteEvent, if_neg (by simp), if_pos (show low < Config.breakBits from short)]
  · rw [hostByteEvent, if_neg (by simp), if_neg (show ¬ low < Config.breakBits from Nat.not_lt.mpr long)]
  · subst idle
    exact Tx.level_after (Nat.zero_le k)

end Sys2Proof.Machine

/-! SUPPORT. The choice of work, the queue's order, the station entry, and the quick-cal timer with the messages that
a port engine takes: O41 to O43 and O47 to O49. -/

namespace Sys2Proof.Machine

/-! ### The choice of work -/

theorem Port.nextWork_of_not {q : Port} (h : ¬ (q.state.inService = true ∧ q.inFlight = none ∧ q.claim ≠ .window)) :
    q.nextWork = q := if_neg h

theorem Port.nextWork_of_granted {q : Port} (service : q.state.inService = true) (free : q.inFlight = none)
    (granted : q.claim = .granted) : q.nextWork = q.openWindow := by
  rw [Port.nextWork, if_pos ⟨service, free, by simp [granted]⟩, if_pos granted]

section
variable {q : Port} (service : q.state.inService = true) (free : q.inFlight = none) (closed : q.claim ≠ .window)
  (waits : q.claim ≠ .granted)
include service free closed waits

theorem Port.nextWork_of_sweep {w : Sweep} (sweep : q.sweep = some w) (probes : w.last = .transaction ∨ q.queue = []) :
    q.nextWork = q.takeProbe w := by
  have not : ¬ (w.last = .probe ∧ q.queue ≠ []) := by rcases probes with e | e <;> simp [e]
  rw [Port.nextWork, if_pos ⟨service, free, closed⟩, if_neg waits]
  simp only [sweep, if_neg not]

theorem Port.nextWork_of_head (queued : q.queue ≠ []) (turn : ∀ w, q.sweep = some w → w.last = .probe) :
    q.nextWork = q.takeHead := by
  rw [Port.nextWork, if_pos ⟨service, free, closed⟩, if_neg waits]
  rcases sweep : q.sweep with _ | w
  · rfl
  · exact if_pos ⟨turn w sweep, queued⟩

theorem Port.nextWork_of_nothing (none : q.sweep = none) (empty : q.queue = []) : q.nextWork = q := by
  rw [Port.nextWork, if_pos ⟨service, free, closed⟩, if_neg waits]
  simp only [none, Port.takeHead, empty]

end

/-- The two rules of R43 and R62 fix the attempt limit. -/
theorem Port.attemptLimit_eq {q : Port} {x : Txn} {limit : Nat}
    (silent : ∀ a e, x.kind = .request → x.station = some a → q.station a = some e → e.state = .silent → limit = 1)
    (given : (x.kind ≠ .request ∨ ∀ a e, x.station = some a → q.station a = some e → e.state ≠ .silent) →
      limit = x.attempts) : q.attemptLimit x = limit := by
  unfold Port.attemptLimit
  split
  · next a kind station =>
    split
    · next e known =>
      split
      · next isSilent => exact (silent a e kind station known isSilent).symm
      · next other =>
        refine (given (.inr fun a' e' h h' => ?_)).symm
        rw [station, Option.some.injEq] at h
        rw [← h, known, Option.some.injEq] at h'
        rw [← h']; exact other
    · next absent =>
      refine (given (.inr fun a' e' h h' => ?_)).symm
      rw [station, Option.some.injEq] at h
      rw [← h, absent] at h'
      cases h'
  · next other =>
    refine (given ?_).symm
    by_cases kind : x.kind = .request
    · exact .inr fun a e station _ => absurd station (other a kind)
    · exact .inl kind

theorem Port.beginIfIdle_of_active {q : Port} (active : q.line.restCount ≠ 14) : q.beginIfIdle = q := by
  have notIdle : q.lineIdle = false := beq_false_of_ne active
  rw [Port.beginIfIdle]
  split
  · rfl
  · exact if_neg (by simp [notIdle])

theorem Port.beginIfIdle_of_idle {q : Port} {f : InFlight} (work : q.inFlight = some f)
    (waits : f.phase = .waitingIdle ∨ f.phase = .recovering) (idle : q.line.restCount = 14) : q.beginIfIdle =
      { q with
        inFlight := some ⟨.sending, f.work.begun⟩, lateReply := none
        line := { q.line with driver := .driving, sending := f.work.frame, restCount := 0
                              lastSample := some .active } } := by
  have isIdle : q.lineIdle = true := beq_of_eq idle
  simp only [Port.beginIfIdle, work]
  exact if_pos ⟨waits, isIdle⟩

/-- Settles O41: R33's order from the top, and the beginning of work on an idle line. -/
theorem nextWorkIsChosenInOrder : Obligations.NextWorkIsChosenInOrder := by
  refine ⟨fun q => ⟨Port.nextWork_of_not, fun service free closed => ⟨Port.nextWork_of_granted service free,
    fun waits => ⟨fun w sweep probes => Port.nextWork_of_sweep service free closed waits sweep probes,
      fun x rest limit queued turn limits => ?_, fun none empty => ?_⟩⟩⟩,
    fun q f work => ⟨Port.beginIfIdle_of_active, fun waits idle => ?_⟩⟩
  · rw [Port.nextWork_of_head service free closed waits (by simp [queued]) turn]
    simp only [Port.takeHead, queued, Port.attemptLimit_eq limits.1 limits.2]
  · exact Port.nextWork_of_nothing service free closed waits none empty
  · obtain ⟨ph, r | r⟩ := f <;> exact Port.beginIfIdle_of_idle work (.inl waits) idle

/-- Settles O42: the EXPEDITED ones are the leading ones that `insertTxn` takes. -/
theorem queueKeepsClassOrder : Obligations.QueueKeepsClassOrder := by
  intro x first rest expedited normal
  have leading : ∀ y ∈ first, Txn.isExpedited y = true := fun y mem => by simp [Txn.isExpedited, expedited y mem]
  have behind : rest.takeWhile Txn.isExpedited = [] ∧ rest.dropWhile Txn.isExpedited = rest := by
    rcases rest with _ | ⟨y, rest⟩
    · exact ⟨rfl, rfl⟩
    · have : Txn.isExpedited y = false := by simp [Txn.isExpedited, normal y (by simp)]
      simp [this]
  refine ⟨fun cls => ?_, fun cls => ?_⟩
  · simp only [insertTxn, cls, List.takeWhile_append_of_pos leading, List.dropWhile_append_of_pos leading, behind,
      List.append_nil]
  · simp [insertTxn, cls]

/-! ### The station entry -/

theorem StationState.afterFailure_eq (st : StationState) (run : Byte) : st.afterFailure run =
    if st = .active ∧ run.toNat < 3 then .suspect
    else if (st = .active ∨ st = .suspect) ∧ 3 ≤ run.toNat then .silent
    else st := by
  have split3 : 3 ≤ run.toNat ↔ ¬ run.toNat < 3 := Nat.not_lt.symm
  cases st <;> by_cases few : run.toNat < 3 <;> simp [StationState.afterFailure, split3, few]

theorem StationState.afterReply_eq (st : StationState) : st.afterReply =
    if st = .suspect ∨ st = .silent then .active else st := by
  cases st <;> rfl

/-- Settles O43: a failure, a good reply, and the outcomes that leave the entry. -/
theorem completionsMoveTheStationEntry : Obligations.CompletionsMoveTheStationEntry := by
  intro e kind o run
  refine ⟨fun failed => ?_, ?_, fun ended => ?_⟩
  · have fails : e.complete kind o =
        if kind = .request then
          { e with failed := satInc e.failed, failureRun := incRun e.failureRun
                   state := e.state.afterFailure (incRun e.failureRun) }
        else { e with failed := satInc e.failed } := by
      rcases failed with rfl | rfl | rfl <;> rfl
    have counted : incRun e.failureRun = run := by
      unfold incRun
      split
      · next full => simp only [run, full, if_true]
      · next free => simp only [run, free, if_false]
    rw [fails, StationState.afterFailure_eq, counted]
  · rintro rfl
    rw [Station.complete, StationState.afterReply_eq]
  · refine Station.complete_leaves e kind ?_
    rcases ended with rfl | rfl | rfl | rfl | rfl <;> rfl

/-! ### Work on one port, and messages -/

theorem PortWork.unanswered {p : PortId} {s t : State} (work : PortWork p s t) : Unanswered s t :=
  ⟨work.power, work.pending, work.receiver, work.inbound, work.answers⟩

theorem TrimWork.unanswered {s t : State} (work : TrimWork s t) : Unanswered s t :=
  ⟨work.power, work.pending, work.receiver, work.inbound, work.answers⟩

/-- A change of one port is quiet. -/
theorem modPort_quiet (p : PortId) (f : Port → Port) (s : State) : Quiet s (s.modPort p f) p :=
  ⟨(modPort_work p f s).unanswered, .of_link_eq rfl, rfl, rfl, (modPort_work p f s).others⟩

theorem Port.discards_iff (q : Port) (m : TrimMsg) :
    q.discards m = true ↔ q.claim = .none ∨ m.number ≠ q.claimNumber := by
  simp [Port.discards]

/-- A command of the running hub that changes one port. -/
theorem modPort_next {p : PortId} {f : Port → Port} {s : State} {o : Host.Outcome State Fault Refusal} {q : Port}
    (run : o = .next (s.modPort p f)) (port : (f (s.port p)).refresh = q) :
    ∃ t, o = .next t ∧ Quiet s t p ∧ t.port p = q :=
  ⟨_, run, modPort_quiet p f s, (s.modPort_port_same p f).trans port⟩

theorem modPort_twice_next {p : PortId} {f g : Port → Port} {s : State} {o : Host.Outcome State Fault Refusal}
    {q : Port} (run : o = .next ((s.modPort p f).modPort p g)) (port : (g (f (s.port p)).refresh).refresh = q) :
    ∃ t, o = .next t ∧ Quiet s t p ∧ t.port p = q := by
  obtain ⟨t, next, ⟨unanswered, -, cmd, trim, others⟩, own⟩ := modPort_next run rfl
  refine ⟨t, next, ⟨unanswered, .of_link_eq ?_, cmd, trim, fun p' other => ?_⟩, ?_⟩
  · cases run.symm.trans next; rfl
  · rw [others p' other, State.modPort_port_other _ _ other]
  · rw [own, State.modPort_port_same, port]

section
variable {s : State} {p : PortId} (running : s.power = .running)
include running

theorem takeFromPort_mine {m : PortMsg} {rest : List PortMsg} {mine : PortMsg → Bool}
    (oldest : (s.port p).toTrim = m :: rest) (isMine : mine m = true) :
    takeFromPort p mine s = takePortMsg p m (dropPortMsg p s) := by
  rw [takeFromPort, whenRunning_running running]
  simp only [oldest, isMine, if_true]

variable {m : TrimMsg} {rest : List TrimMsg} {mine : TrimMsg → Bool} {act : TrimMsg → State → State}
  (oldest : (s.port p).fromTrim = m :: rest) (isMine : mine m = true)
include oldest isMine

theorem takeFromTrim_discards (stale : (s.port p).claim = .none ∨ m.number ≠ (s.port p).claimNumber) :
    takeFromTrim p mine act s = s.modPort p fun q => { q with fromTrim := rest } := by
  have discards : ((s.modPort p fun q => { q with fromTrim := rest }).port p).discards m = true := by
    rw [State.modPort_port_same]
    exact (Port.discards_iff _ m).2 stale
  rw [takeFromTrim, whenRunning_running running]
  simp only [oldest, isMine, discards, if_true]

theorem takeFromTrim_acts (claimed : (s.port p).claim ≠ .none) (current : m.number = (s.port p).claimNumber) :
    takeFromTrim p mine act s = act m (s.modPort p fun q => { q with fromTrim := rest }) := by
  have keeps : ((s.modPort p fun q => { q with fromTrim := rest }).port p).discards m = false := by
    rw [State.modPort_port_same]
    simp [Port.discards, claimed, current]
  rw [takeFromTrim, whenRunning_running running]
  simp only [oldest, isMine, keeps, if_true, Bool.false_eq_true, if_false]

end

/-! ### The quick-cal timer -/

/-- Settles O47: R136's cut. -/
theorem newIntervalCutsRunningTimers : Obligations.NewIntervalCutsRunningTimers := by
  intro s p v rest running arrived
  refine modPort_next (congrArg Host.Outcome.next (whenRunning_running running _)) ?_
  rw [Port.takeInterval, arrived]
  rcases timer : (s.port p).timer with _ | ms | _
  · simp only [QuickTimer.cut]
  · simp only [QuickTimer.cut]
    congr 3
    by_cases longer : v < ms
    · rw [if_pos longer, Nat.min_eq_right longer.le]
    · rw [if_neg longer, Nat.min_eq_left (Nat.not_lt.mp longer)]
  · simp only [QuickTimer.cut]

theorem TimePasses.of_port_eq {s t u : State} {p : PortId} {n : Nat} (h : TimePasses s t p n)
    (same : u.port p = t.port p) : TimePasses s u p n := by
  rw [TimePasses, same]; exact h

theorem exec_quickCalExpiry {s : State} {p : PortId} {ms : Nat} (running : s.power = .running)
    (timer : (s.port p).timer = .running ms) : exec (.quickCalExpiry p) s =
      .next (if s.closing p then s else (s.pass ms).modPort p (Port.expire p)) := by
  simp only [exec, execQuickCalExpiry, whenRunning_running running, timer]

/-- A timer that expires as its time ends. -/
theorem Port.expire_pass {q : Port} {ms : Nat} (p : PortId) (timer : q.timer = .running ms) :
    ((q.pass p ms false).refresh.expire p).refresh = (q.timedOut p).refresh := by
  rw [Port.pass_counts p timer (.inl le_rfl)]
  by_cases free : q.claim = .none
  · rw [Port.timedOut, if_pos free, Port.expire, if_pos (by exact free)]
    rfl
  · rw [Port.timedOut, if_neg free, Port.expire, if_neg (by exact free)]
    rfl

/-! ### Requests at the trim unit -/

theorem takeRequest_fresh {r : Request} {s : State} (notHeld : ∀ h, s.trim.holder = some h → h.request.port ≠ r.port)
    (notQueued : ∀ e ∈ s.trim.queue, e.port ≠ r.port) : takeRequest r s = (.ok, enterTail r s) := by
  have held : s.trim.holderOf r.port = none := by
    rcases e : s.trim.holder with _ | h
    · simp [TrimUnit.holderOf, e]
    · simp [TrimUnit.holderOf, e, notHeld h e]
  have queued : s.trim.queuedOf r.port = none := by simpa [TrimUnit.queuedOf] using notQueued
  simp only [takeRequest, held, queued, Option.isSome_none, Bool.false_eq_true, if_false]

/-- A request behind a holder waits at the tail. -/
theorem enterTail_held (r : Request) {s : State} (held : s.trim.holder ≠ none) :
    enterTail r s = s.setTrim { s.trim with queue := s.trim.queue ++ [r] } := by
  rw [enterTail, grantHead]
  split
  · next free _ => exact absurd free held
  · rfl

/-- A request that finds the reference free is granted at once. -/
theorem enterTail_free (r : Request) {s : State} (free : s.trim.holder = none) (empty : s.trim.queue = []) :
    enterTail r s =
      sendPort r.port (.granted r.number) (s.setTrim { s.trim with holder := some ⟨r, .granted⟩ }) := by
  simp only [enterTail, grantHead, State.setTrim_trim, free, empty, List.nil_append]
  rfl

theorem sendPort_port (p : PortId) (m : TrimMsg) (s : State) :
    (sendPort p m s).port p = Port.refresh { s.port p with fromTrim := (s.port p).fromTrim ++ [m] } :=
  s.modPort_port_same p _

theorem sendPort_port_other {p p' : PortId} (m : TrimMsg) (s : State) (other : p' ≠ p) :
    (sendPort p m s).port p' = s.port p' := s.modPort_port_other _ other

theorem dropPortMsg_port {p : PortId} {s : State} {m : PortMsg} {rest : List PortMsg}
    (oldest : (s.port p).toTrim = m :: rest) :
    (dropPortMsg p s).port p = Port.refresh { s.port p with toTrim := rest } := by
  rw [dropPortMsg, State.modPort_port_same, oldest]
  rfl

theorem dropPortMsg_port_other {p p' : PortId} (s : State) (other : p' ≠ p) :
    (dropPortMsg p s).port p' = s.port p' := s.modPort_port_other _ other

/-- Settles O48: the expiry after the time that the timer had left, and the request that reaches the trim unit. -/
theorem expiryAsksForAQuickCalibration : Obligations.ExpiryAsksForAQuickCalibration := by
  intro s p running
  refine ⟨fun ms timer awake => ?expires, fun idle => ?_, fun closing => ?_, fun r rest oldest mine notHeld notQueued =>
    ?_⟩
  case expires =>
    have open' : s.closing p = false := Bool.eq_false_iff.2 fun c => awake ((State.closing_iff s p).1 c)
    obtain ⟨power, link, cmd, trim, pending, ports⟩ := State.pass_spec running ms
    refine ⟨(s.pass ms).modPort p (Port.expire p), ?_, ?_, .of_link_eq link, cmd, trim, ?_, fun p' other => ?_⟩
    · rw [exec_quickCalExpiry running timer, open']; rfl
    · simp only [Unanswered, SameReceiver, State.modPort_power, State.modPort_link, State.modPort_pending, power, link,
        pending, and_self]
    · rw [State.modPort_port_same, ports, open', Port.expire_pass p timer]
    · exact (State.pass_timePasses running ms p').of_port_eq (State.modPort_port_other _ _ other)
  · simp only [exec, execQuickCalExpiry, whenRunning_running running]
    rcases timer : (s.port p).timer with _ | ms | _
    · rfl
    · exact absurd timer (idle ms)
    · rfl
  · have closes := (State.closing_iff s p).2 closing
    simp only [exec, execQuickCalExpiry, whenRunning_running running, closes, if_true]
    split <;> rfl
  · have run : exec (.calibrationRequest p) s = .next (enterTail r (dropPortMsg p s)) := by
      refine congrArg Host.Outcome.next ((takeFromPort_mine running oldest rfl).trans ?_)
      rw [takePortMsg, takeRequest_fresh (by rw [mine]; exact notHeld) (by rw [mine]; exact notQueued)]
    have work := (dropPortMsg_trimWork p s).trans (enterTail_trimWork r _)
    refine ⟨fun held => ⟨_, run, work.unanswered, ?_⟩, fun free empty => ⟨_, run, work.unanswered, ?_⟩⟩
    · rw [enterTail_held (s := dropPortMsg p s) r held]
      exact ⟨.of_link_eq rfl, rfl, rfl, fun p' other => dropPortMsg_port_other s other, dropPortMsg_port oldest⟩
    · rw [enterTail_free (s := dropPortMsg p s) r free empty, mine]
      refine ⟨.of_link_eq rfl, rfl, rfl, fun p' other => ?_, ?_⟩
      · rw [sendPort_port_other _ _ other]
        exact dropPortMsg_port_other s other
      · rw [sendPort_port]
        simp only [State.setTrim_port, dropPortMsg_port oldest]
        rfl

/-! ### Upgrades and grants -/

/-- A transition reports its PORT_STATE. -/
theorem moveTo_posts (p : PortId) (st : PortState) (c : TransCause) {s : State} (room : s.RoomFor 1) :
    Posts s (moveTo p st c s) [.portState p st c] :=
  ⟨(postNotice_posts (.portState p st c) (s.modPort p _) room).reported,
    (postNotice_posts (.portState p st c) (s.modPort p _) room).grows⟩

theorem takeUpgrade_quick {p : PortId} {s : State} (quick : (s.port p).state = .trimming .quick) :
    takeUpgrade p s = moveTo p (.trimming .full) .upgraded
        (s.modPort p fun q => { q with claimKind := some .full }) := by
  have : ((s.modPort p fun q => { q with claimKind := some .full }).port p).state = .trimming .quick := by
    rw [State.modPort_port_same]; exact quick
  rw [takeUpgrade]
  exact if_pos this

theorem takeUpgrade_other {p : PortId} {s : State} (other : (s.port p).state ≠ .trimming .quick) :
    takeUpgrade p s = s.modPort p fun q => { q with claimKind := some .full } := by
  have : ((s.modPort p fun q => { q with claimKind := some .full }).port p).state ≠ .trimming .quick := by
    rw [State.modPort_port_same]; exact other
  rw [takeUpgrade]
  exact if_neg this

/-- A grant finds nothing in flight: the window opens, in TRIMMING at once and in service as the next work. -/
theorem Port.takeGrant_opens {q : Port} (queued : q.claim = .queued) (free : q.inFlight = none)
    (receives : q.state.receives = true) :
    q.takeGrant = { q with claim := .window, toTrim := q.toTrim ++ [.windowOpen q.claimNumber] } := by
  rw [Port.takeGrant, if_pos queued]
  by_cases trimming : q.state.isTrimming = true
  · exact if_pos trimming
  · have service : q.state.inService = true := by
      rcases state : q.state with _ | kind | _ | _ | _ | cause
      case trimming => simp [state, PortState.isTrimming] at trimming
      case ready | degraded => rfl
      all_goals simp [state, PortState.receives] at receives
    exact (if_neg trimming).trans (Port.nextWork_of_granted (q := { q with claim := .granted }) service free rfl)

/-- A grant finds work in flight: it waits. -/
theorem Port.takeGrant_waits {q : Port} (queued : q.claim = .queued) (busy : q.inFlight ≠ none)
    (service : q.state.inService = true) : q.takeGrant = { q with claim := .granted } := by
  have notTrimming : q.state.isTrimming = false := by
    rcases state : q.state with _ | kind | _ | _ | _ | cause
    case trimming => rw [state] at service; cases service
    all_goals rfl
  rw [Port.takeGrant, if_pos queued]
  simp only [notTrimming, Bool.false_eq_true, if_false]
  exact Port.nextWork_of_not (q := { q with claim := .granted }) fun h => busy h.2.1

/-- Settles O49: the discarding rule of R112 for each message, then the upgrade and the grant. -/
theorem portTakesUpgradesAndGrants : Obligations.PortTakesUpgradesAndGrants := by
  intro s p rest running q
  refine ⟨fun m c oldest stale is => ?_, fun oldest claimed => ?_, fun oldest queued => ?_⟩
  · subst is
    cases m <;> exact modPort_next (congrArg Host.Outcome.next (takeFromTrim_discards running oldest rfl stale)) rfl
  · have run : exec (.upgrade p) s = .next (takeUpgrade p (s.modPort p fun q => { q with fromTrim := rest })) :=
      congrArg Host.Outcome.next (takeFromTrim_acts running oldest rfl claimed rfl)
    have work := (modPort_work p (fun q => { q with fromTrim := rest }) s).trans (takeUpgrade_work p _)
    refine ⟨fun quick room => ⟨_, run, work.unanswered, ?_⟩, fun other => ?_⟩
    · have quick' : ((s.modPort p fun q => { q with fromTrim := rest }).port p).state = .trimming .quick := by
        rw [State.modPort_port_same]; exact quick
      refine ⟨?_, ⟨?_, work.trim, work.others⟩, ?_⟩
      · rw [takeUpgrade_quick quick']
        exact (moveTo_posts p _ _ room).reported
      · rw [takeUpgrade_quick quick']; rfl
      · rw [takeUpgrade_quick quick', moveTo_port, State.modPort_port_same, State.modPort_port_same]
        rfl
    · have other' : ((s.modPort p fun q => { q with fromTrim := rest }).port p).state ≠ .trimming .quick := by
        rw [State.modPort_port_same]; exact other
      rw [takeUpgrade_other other'] at run
      exact modPort_twice_next run rfl
  · have run : exec (.grant p) s = .next
      ((s.modPort p fun q => { q with fromTrim := rest }).modPort p Port.takeGrant) :=
      congrArg Host.Outcome.next (takeFromTrim_acts running oldest rfl (by rw [queued]; simp) rfl)
    refine ⟨fun free receives => modPort_twice_next run ?_, fun busy service => modPort_twice_next run ?_⟩
    · have opens := Port.takeGrant_opens (q := q.refresh) queued free receives
      exact (congrArg Port.refresh opens :)
    · have waits := Port.takeGrant_waits (q := q.refresh) queued busy service
      exact (congrArg Port.refresh waits :)

end Sys2Proof.Machine

/-! SUPPORT. The host commands past the common checks: their operands read back from the body that carries them, the
frame of a command that is answered and then works on one port, and O13, O15, O16, O19, O20 and O25 to O27. -/

namespace Sys2Proof.Machine

/-! ### Operands -/

theorem parseDrift_body {t0 t1 v0 v1 : Byte} (tInRange : (word t0 t1).toNat ≤ 20000)
    (vInRange : (word v0 v1).toNat ≤ 50000) :
    parseDrift [t0, t1, v0, v1] = .ok ((word t0 t1).toNat, (word v0 v1).toNat) := by
  have ok : decide ((word t0 t1).toNat ≤ Config.maxDT ∧ (word v0 v1).toNat ≤ Config.maxDV) = true :=
    decide_eq_true ⟨tInRange, vInRange⟩
  simp only [parseDrift, ok]
  rfl

theorem parseDrift_out {t0 t1 v0 v1 : Byte} (out : 20000 < (word t0 t1).toNat ∨ 50000 < (word v0 v1).toNat) :
    parseDrift [t0, t1, v0, v1] = .error .badValue := by
  have bad : decide ((word t0 t1).toNat ≤ Config.maxDT ∧ (word v0 v1).toNat ≤ Config.maxDV) = false :=
    decide_eq_false fun ⟨t, v⟩ => out.elim (Nat.not_lt.mpr t) (Nat.not_lt.mpr v)
  simp only [parseDrift, bad]
  rfl

theorem parseEnable_body (p : PortId) {rate gap timeout attempts : Byte} (ok : rate.toNat ≤ 5 ∧ 2 ≤ gap.toNat ∧
    gap.toNat ≤ 15 ∧ 1 ≤ timeout.toNat ∧ 1 ≤ attempts.toNat ∧ attempts.toNat ≤ 4) :
    parseEnable [portByte p, rate, gap, timeout, attempts] = .ok (p, ⟨rate, gap, timeout, attempts⟩) := by
  simp only [parseEnable, parsePort_portByte, decide_eq_true ok]
  rfl

theorem parseProfile_body (p : PortId) {park nominal listen hold : Byte} {profile : Profile}
    (isPark : roleOf park = some profile.park) (isNominal : roleOf nominal = some profile.nominal)
    (isListen : roleOf listen = some profile.listen) (isHold : flagOf hold = some profile.hold) :
    parseProfile [portByte p, park, nominal, listen, hold] = .ok (p, profile) := by
  simp only [parseProfile, parsePort_portByte, isPark, isNominal, isListen, isHold]
  rfl

theorem parseDoze_body (p : PortId) {d : Byte} {dir : DozeDir} (is : dozeDirOf d = some dir) :
    parseDoze [portByte p, d] = .ok (p, dir) := by
  simp only [parseDoze, parsePort_portByte, is]
  rfl

theorem parseSweep_body (p : PortId) {a : Addr} (nonzero : a ≠ 0) (range : ThRange) :
    parseSweep [portByte p, a.setWidth 8, range.code] = .ok (p, a, range) := by
  simp only [parseSweep, parsePort_portByte, addrOf_setWidth nonzero, rangeOf_code]
  rfl

theorem parseCancel_body {t0 t1 : Byte} (nonzero : word t0 t1 ≠ 0) : parseCancel [t0, t1] = .ok (word t0 t1) := by
  have ok : (word t0 t1 != 0) = true := bne_iff_ne.mpr nonzero
  simp only [parseCancel, ok]
  rfl

theorem word_tag (tag : Word16) : word (tag.setWidth 8) ((tag >>> 8).setWidth 8) = tag :=
  ((eq_word_iff ..).2 ⟨rfl, rfl⟩).symm

theorem toNat_ofNat_small {n : Nat} (small : n ≤ 48) : (BitVec.ofNat 8 n).toNat = n := by
  rw [BitVec.toNat_ofNat]
  exact Nat.mod_eq_of_lt (by omega)

/-- SUBMIT's station and reply limit are read back (R58). -/
theorem Txn.Submittable.reads {x : Txn} (ok : x.Submittable) :
    txnStationOf x.kind ((x.station.getD 0).setWidth 8) = some x.station ∧
    replyLimitOf x.kind (BitVec.ofNat 8 (x.replyLimit.getD 0)) = some x.replyLimit := by
  obtain ⟨-, -, -, ⟨kind, ⟨a, station, nonzero⟩, n, limit, small⟩ | ⟨kind, ⟨a, station, nonzero⟩, limit⟩ |
    ⟨kind, station, limit⟩⟩ := ok
  · have fits : n ≤ Config.maxCount := small
    simp [kind, station, limit, txnStationOf, replyLimitOf, addrOf_setWidth nonzero, toNat_ofNat_small small, fits]
  · simp [kind, station, limit, txnStationOf, replyLimitOf, addrOf_setWidth nonzero]
  · simp [kind, station, limit, txnStationOf, replyLimitOf]

theorem parsed_ok_bind {α β : Type} (a : α) (k : α → Parsed β) : ((.ok a : Parsed α) >>= k) = k a := rfl

theorem value_some_bind {α β : Type} (a : α) (k : α → Parsed β) : (value (some a) >>= k) = k a := rfl

theorem inRange_true_bind {β : Type} (k : Unit → Parsed β) : (inRange true >>= k) = k () := rfl

/-- A SUBMIT whose fields are read. -/
theorem parseSubmit_fields {b t0 t1 k c st at' lim : Byte} {payload : List Byte} {p : PortId} {kind : TxnKind}
    {cls : TxnClass} {station : Option Addr} {limit : Option Nat} (fits : payload.length ≤ 48)
    (port : parsePort b = .ok p) (tag : word t0 t1 ≠ 0) (isKind : txnKindOf k = some kind)
    (isClass : classOf c = some cls) (isStation : txnStationOf kind st = some station) (attempts : at'.toNat ≤ 4)
    (isLimit : replyLimitOf kind lim = some limit) :
    parseSubmit (b :: t0 :: t1 :: k :: c :: st :: at' :: lim :: payload) =
      .ok (p, ⟨word t0 t1, kind, cls, station, at'.toNat, limit, payload⟩) := by
  have notLong : ¬ Config.maxCount < payload.length := Nat.not_lt.mpr fits
  have nonzero : (word t0 t1 != 0) = true := bne_iff_ne.mpr tag
  simp only [parseSubmit, if_neg notLong, port, nonzero, isKind, isClass, decide_eq_true attempts, parsed_ok_bind,
    value_some_bind, inRange_true_bind, isStation, isLimit]

theorem parseSubmit_body {x : Txn} (ok : x.Submittable) (p : PortId) :
    parseSubmit (x.submitBody p) = .ok (p, x) := by
  obtain ⟨tag, attempts, payload, -⟩ := id ok
  obtain ⟨station, limit⟩ := ok.reads
  have given : (BitVec.ofNat 8 x.attempts).toNat = x.attempts := toNat_ofNat_small (by omega)
  have port : parsePort (BitVec.ofNat 8 p.val) = .ok p := parsePort_portByte p
  have isKind : txnKindOf (match x.kind with
      | .request => 1
      | .post => 2
      | .broadcast => 3) = some x.kind := by cases x.kind <;> rfl
  have isClass : classOf (match x.cls with
      | .normal => 1
      | .expedited => 2) = some x.cls := by cases x.cls <;> rfl
  refine (parseSubmit_fields payload port (by rw [word_tag]; exact tag) isKind isClass station
      (by rw [given]; exact attempts)
    limit).trans ?_
  rw [word_tag, given]

/-! ### Commands that are answered and then work on one port -/

section
variable {s t : State} {f : HostFrame} {p : PortId} {r : Result} {d : List Byte}

/-- Whatever a port engine does once its frame has been answered, the answer stands and the other ports do. -/
theorem answered_of_portWork (work : PortWork p (respond f r d s.popFrame) t) :
    Answered s t f r d ∧ t.trim = s.trim ∧ t.cmd.draining = s.cmd.draining ∧ ∀ p', p' ≠ p → t.port p' = s.port p' := by
  obtain ⟨⟨-, -, ⟨rate, receiver, framer, gap⟩, inbound, answers⟩, -, -⟩ := respond_spec f r d s
  obtain ⟨rate', receiver', framer', gap'⟩ := work.receiver
  exact ⟨⟨work.power, work.pending, ⟨rate'.trans rate, receiver'.trans receiver, framer'.trans framer, gap'.trans gap⟩,
    work.inbound.trans inbound, work.answers.trans answers⟩, work.trim, work.draining, work.others⟩

theorem reported_of_respond {ns : List Notice} (posted : Reported (respond f r d s.popFrame) t ns) : Reported s t ns :=
  (respond_spec f r d s).2.1.trans posted

theorem respond_room {n : Nat} (room : s.RoomFor n) : (respond f r d s.popFrame).RoomFor n := by
  have same : (respond f r d s.popFrame).link.notices = s.link.notices := respond_notices f r d s.popFrame
  simpa only [State.RoomFor, same] using room

end

/-! ### Status commands -/

theorem parsePortOnly_body (p : PortId) : parsePortOnly [portByte p] = .ok p := parsePort_portByte p

theorem le_zero : le 0 = [0, 0] := by decide

theorem Port.station_split {q : Port} {a : Addr} {before after : List Station} {e : Station}
    (stations : q.stations = before ++ e :: after) (isA : e.addr = a) (first : ∀ x ∈ before, x.addr ≠ a) :
    q.station a = some e ∧ q.position a = before.length + 1 := by
  have others : ∀ x ∈ before, (x.addr == a) = false := fun x mem => beq_false_of_ne (first x mem)
  have is : (e.addr == a) = true := beq_of_eq isA
  have index : q.stations.findIdx (fun x => x.addr == a) = before.length := by
    rw [stations, List.findIdx_append, if_neg]
    · simp [List.findIdx_cons, is]
    · rw [List.findIdx_lt_length]
      rintro ⟨x, mem, same⟩
      simp [others x mem] at same
  refine ⟨?_, ?_⟩
  · rw [Port.station, stations, List.find?_append, List.find?_eq_none.2 (by simpa using first)]
    simp [is]
  · simp only [Port.position, index]
    rw [if_pos (by simp [stations])]

/-- Settles O13: each of the five answers with its data, and nothing else. -/
theorem statusCommandsOnlyReport : Obligations.StatusCommandsOnlyReport := by
  intro s f takes
  refine ⟨fun kind body => ?_, fun kind body => ?_, fun p kind body => ?_, fun p a kind body nonzero => ?_,
    fun p kind body => ?_⟩
  · exact ⟨_, congrArg Host.Outcome.next
      (takeCommand_ok takes kind (parse := parseEmpty) (a := ()) (by rw [body]; rfl) _),
      respond_spec ..⟩
  · refine ⟨_, congrArg Host.Outcome.next
      (takeCommand_ok takes kind (parse := parseEmpty) (a := ()) (by rw [body]; rfl) _), respond_spec ..⟩
  · exact ⟨_, congrArg Host.Outcome.next
      (takeCommand_ok takes kind (parse := parsePortOnly) (by rw [body]; exact parsePortOnly_body p) _),
          respond_spec ..⟩
  · have run : exec .stationStatus s = .next
        ((((s.port p).station a).map fun e =>
          respond f .ok (stationStatusData ((s.port p).position a) e) s.popFrame).getD
            (respond f .unknownStation [] s.popFrame)) := by
      refine congrArg Host.Outcome.next ((takeCommand_ok takes kind (parse := parseStation)
        (by rw [body]; exact parseStation_body p nonzero) _).trans ?_)
      simp only [State.popFrame_port]
      rcases (s.port p).station a with _ | e <;> rfl
    rcases known : (s.port p).station a with _ | e
    · rw [known] at run
      obtain ⟨answered, reported, same⟩ := respond_spec f .unknownStation [] s
      refine ⟨_, run, reported, same, fun _ => answered, fun before e after stations isA first => ?_⟩
      rw [(Port.station_split stations isA first).1] at known
      cases known
    · rw [known] at run
      obtain ⟨answered, reported, same⟩ := respond_spec f .ok (stationStatusData ((s.port p).position a) e) s
      refine ⟨_, run, reported, same, fun absent => (nomatch absent), fun before e' after stations isA first => ?_⟩
      obtain ⟨known', position⟩ := Port.station_split stations isA first
      rw [known, Option.some.injEq] at known'
      subst known'
      refine Eq.mp (congrArg (Answered s _ f .ok) ?_) answered
      rw [position, stationStatusData, isA]
      rfl
  · refine ⟨_, congrArg Host.Outcome.next
      (takeCommand_ok takes kind (parse := parsePortOnly) (by rw [body]; exact parsePortOnly_body p) _), ?_⟩
    have spec := respond_spec f .ok (queueListData (s.port p)) s
    have tag : le (s.port p).inFlightTag = (match (s.port p).inFlight with
        | some ⟨_, .txn r⟩ => le r.txn.tag
        | some ⟨_, .probe _⟩ => [0, 0]
        | none => [0, 0]) := by
      rw [Port.inFlightTag]
      rcases (s.port p).inFlight with _ | ⟨ph, r | r⟩
      · exact le_zero
      · rfl
      · exact le_zero
    rw [queueListData, tag] at spec
    simp only [State.popFrame_port]
    rw [queueListData, tag]
    exact spec

/-! ### SET_DRIFT and PORT_ENABLE -/

/-- Settles O15. -/
theorem setDriftWritesAndPassesTheInterval : Obligations.SetDriftWritesAndPassesTheInterval := by
  intro s f t0 t1 v0 v1 takes kind body
  refine ⟨fun ⟨tInRange, vInRange⟩ => ?_, fun out => ?_⟩
  · refine ⟨_, congrArg Host.Outcome.next
      (takeCommand_ok takes kind (by rw [body]; exact parseDrift_body tInRange vInRange) _), ?_⟩
    obtain ⟨answered, reported, -⟩ := respond_spec f .ok
      (leNat (intervalOf (word t0 t1).toNat (word v0 v1).toNat)) s
    exact ⟨answered, reported, rfl, rfl, fun p => takeDrift_port _ _ _ p⟩
  · exact ⟨_, rfl, takeCommand_refused takes kind (by rw [body]; exact parseDrift_out out) _⟩

theorem enablePort_work (p : PortId) (set : Settings) (s : State) : PortWork p s (enablePort p set s) :=
  ((modPort_work p _ s).trans (moveTo_work p _ _ _)).trans (modPort_work p _ _)

/-- Settles O16. -/
theorem portEnableStartsTrimming : Obligations.PortEnableStartsTrimming := by
  intro s f p rate gap timeout attempts takes kind body h1 h2 h3 h4 h5 h6
  have run : exec .portEnable s = .next (if (s.port p).state = .off
      then enablePort p ⟨rate, gap, timeout, attempts⟩ (respond f .ok [] s.popFrame)
      else respond f .portState [] s.popFrame) :=
    congrArg Host.Outcome.next (takeCommand_ok takes kind (parse := parseEnable)
      (by rw [body]; exact parseEnable_body p ⟨h1, h2, h3, h4, h5, h6⟩) _)
  refine ⟨fun off room => ?_, fun on => ?_⟩
  · rw [if_pos off] at run
    obtain ⟨answered, reported, only⟩ := answered_of_work (enablePort_work p ⟨rate, gap, timeout, attempts⟩ _) rfl
      (moveTo_posts p (.trimming .full) .enabled (respond_room (f := f) (r := .ok) (d := []) room)).reported
    refine ⟨_, run, answered, reported, only, ?_⟩
    simp only [enablePort, State.modPort_port_same, moveTo_port, respond_port, State.popFrame_port]
    rfl
  · rw [if_neg on] at run
    exact ⟨_, run, respond_spec ..⟩

/-! ### SET_TERMINATION and DOZE -/

theorem roleOf_out {b : Byte} (out : 7 < b.toNat) : roleOf b = none := by
  have nonzero : b ≠ 0 := by rintro rfl; simp at out
  rw [roleOf, if_neg nonzero, if_neg (by omega)]

theorem flagOf_out {b : Byte} (out : 1 < b.toNat) : flagOf b = none := by
  have nonzero : b ≠ 0 := by rintro rfl; simp at out
  have notOne : b ≠ 1 := by rintro rfl; simp at out
  rw [flagOf, if_neg nonzero, if_neg notOne]

/-- A refused field refuses the command, whatever the fields before it hold. -/
theorem value_bind_rejects {α β : Type} {x : Option α} {k : α → Parsed β}
    (rest : ∀ a, x = some a → k a = .error .badValue) : (value x >>= k) = .error .badValue := by
  rcases x with _ | a
  · rfl
  · exact rest a rfl

theorem parseProfile_out (p : PortId) {park nominal listen hold : Byte}
    (out : 7 < park.toNat ∨ 7 < nominal.toNat ∨ 7 < listen.toNat ∨ 1 < hold.toNat) :
    parseProfile [portByte p, park, nominal, listen, hold] = .error .badValue := by
  simp only [parseProfile, parsePort_portByte, parsed_ok_bind]
  refine value_bind_rejects fun a isPark => value_bind_rejects fun b isNominal => value_bind_rejects fun c isListen =>
    value_bind_rejects fun d isHold => ?_
  rcases out with out | out | out | out
  · rw [roleOf_out out] at isPark; cases isPark
  · rw [roleOf_out out] at isNominal; cases isNominal
  · rw [roleOf_out out] at isListen; cases isListen
  · rw [flagOf_out out] at isHold; cases isHold

theorem respond_modPort (f : HostFrame) (r : Result) (d : List Byte) (p : PortId) (g : Port → Port) (s : State) :
    respond f r d (s.modPort p g) = (respond f r d s).modPort p g := rfl

/-- Settles O19. -/
theorem setTerminationReplacesTheProfile : Obligations.SetTerminationReplacesTheProfile := by
  intro s f p park nominal listen hold takes kind body
  refine ⟨fun profile isPark isNominal isListen isHold => ?_, fun out => ?_⟩
  · have run : exec .setTermination s = .next
        (respond f .ok [] (s.popFrame.modPort p fun q => { q with profile := profile })) :=
      congrArg Host.Outcome.next (takeCommand_ok takes kind (parse := parseProfile)
        (by rw [body]; exact parseProfile_body p isPark isNominal isListen isHold) _)
    rw [respond_modPort] at run
    exact ⟨_, run, respond_modPort_spec s f p fun q => { q with profile := profile }⟩
  · exact ⟨_, rfl, takeCommand_refused takes kind (by rw [body]; exact parseProfile_out p out) _⟩

theorem exec_dozeEnter {s : State} {f : HostFrame} (takes : s.Takes f) (kind : f.kind = 0x0A)
    (enters : f.body[1]? ≠ some 2) : exec .dozeEnter s = .next (takeDoze f s.popFrame) :=
  congrArg Host.Outcome.next (takeFrameIf_takes takes (by rw [kind, dozeLeaves, beq_false_of_ne enters]; rfl) _)

theorem exec_dozeLeave {s : State} {f : HostFrame} (takes : s.Takes f) (kind : f.kind = 0x0A)
    (leaves : f.body[1]? = some 2) : exec .dozeLeave s = .next (takeDoze f s.popFrame) :=
  congrArg Host.Outcome.next (takeFrameIf_takes takes (by rw [kind, dozeLeaves, leaves]; rfl) _)

theorem takeDoze_ok {f : HostFrame} {a : PortId × DozeDir} (parsed : parseDoze f.body = .ok a) (s : State) :
    takeDoze f s = doze f a s := by
  rw [takeDoze, parsed]

theorem takeDoze_error {f : HostFrame} {r : Result} (parsed : parseDoze f.body = .error r) (s : State) :
    takeDoze f s = respond f r [] s := by
  rw [takeDoze, parsed]

/-- Settles O20: the checks of R30 and R31, and the two moves. -/
theorem dozeEntersIdleAndLeavesIntoQuickTrim : Obligations.DozeEntersIdleAndLeavesIntoQuickTrim := by
  intro s f p takes kind
  refine ⟨fun body => ?enter, fun body => ?leave⟩
  case enter =>
    have run : exec .dozeEnter s = .next (doze f (p, .enter) s.popFrame) :=
      (exec_dozeEnter takes kind (by simp [body])).trans
        (congrArg _ (takeDoze_ok (by rw [body]; exact parseDoze_body p rfl) _))
    refine ⟨fun service queue work sweep claim room => ?_, fun service busy => ?_, fun out => ?_⟩
    · have idle : (s.port p).dozeIdle = true := (Port.dozeIdle_iff _).2 ⟨queue, work, sweep, claim⟩
      have enters : doze f (p, .enter) s.popFrame = enterDoze p (respond f .ok [] s.popFrame) := by
        simp [doze, service, idle]
      rw [enters] at run
      obtain ⟨answered, reported, only⟩ := answered_of_work
        ((moveTo_work p .doze .dozeEntered (respond f .ok [] s.popFrame)).trans (modPort_work p _ _)) rfl
        (moveTo_posts p .doze .dozeEntered (respond_room (f := f) (r := .ok) (d := []) room)).reported
      refine ⟨_, run, answered, reported, only, ?_⟩
      simp only [enterDoze, State.modPort_port_same, moveTo_port, respond_port, State.popFrame_port]
      rfl
    · have notIdle : (s.port p).dozeIdle = false := Bool.eq_false_iff.2 fun idle => by
        obtain ⟨queue, work, sweep, claim⟩ := (Port.dozeIdle_iff _).1 idle
        rcases busy with h | h | h | h
        exacts [h queue, h work, h sweep, h claim]
      have refuses : doze f (p, .enter) s.popFrame = respond f .portBusy [] s.popFrame := by
        simp [doze, service, notIdle]
      exact ⟨_, run.trans (congrArg _ refuses), respond_spec ..⟩
    · have refuses : doze f (p, .enter) s.popFrame = respond f .portState [] s.popFrame := by simp [doze, out]
      exact ⟨_, run.trans (congrArg _ refuses), respond_spec ..⟩
  case leave =>
    have run : exec .dozeLeave s = .next (doze f (p, .leave) s.popFrame) :=
      (exec_dozeLeave takes kind (by simp [body])).trans
        (congrArg _ (takeDoze_ok (by rw [body]; exact parseDoze_body p rfl) _))
    refine ⟨fun dozes room => ?_, fun awake => ?_⟩
    · have leaves : doze f (p, .leave) s.popFrame = leaveDoze p (respond f .ok [] s.popFrame) := by
        simp [doze, dozes]
      rw [leaves] at run
      obtain ⟨answered, reported, only⟩ := answered_of_work
        ((moveTo_work p (.trimming .quick) .dozeLeft (respond f .ok [] s.popFrame)).trans (modPort_work p _ _)) rfl
        (moveTo_posts p (.trimming .quick) .dozeLeft (respond_room (f := f) (r := .ok) (d := []) room)).reported
      refine ⟨_, run, answered, reported, only, ?_⟩
      simp only [leaveDoze, State.modPort_port_same, moveTo_port, respond_port, State.popFrame_port]
      rfl
    · have refuses : doze f (p, .leave) s.popFrame = respond f .portState [] s.popFrame := by simp [doze, awake]
      exact ⟨_, run.trans (congrArg _ refuses), respond_spec ..⟩

/-! ### SWEEP, SUBMIT and CANCEL -/

/-- Settles O25: R141's checks in order. -/
theorem sweepCommandChecksThenCreates : Obligations.SweepCommandChecksThenCreates := by
  intro s f p a range takes kind body nonzero
  have run : exec .sweep s = .next (sweepCommand f p a range s.popFrame) :=
    congrArg Host.Outcome.next (takeCommand_ok takes kind (parse := parseSweep)
      (by rw [body]; exact parseSweep_body p nonzero range) _)
  have refuses {r : Result} (e : sweepCommand f p a range s.popFrame = respond f r [] s.popFrame) :
      ∃ t, exec .sweep s = .next t ∧ Refused s t f r := ⟨_, run.trans (congrArg _ e), respond_spec ..⟩
  refine ⟨fun out => refuses ?_, fun service => ⟨fun absent => refuses ?_, fun e known =>
    ⟨fun quarantined => refuses ?_, fun free busy => refuses ?_, fun free none => ?_⟩⟩⟩
  · simp [sweepCommand, out]
  · simp [sweepCommand, service, absent]
  · simp [sweepCommand, service, known, quarantined]
  · simp [sweepCommand, service, known, free, Option.isSome_iff_ne_none.2 busy]
  · have creates : sweepCommand f p a range s.popFrame = (respond f .ok [] s.popFrame).modPort p fun q =>
        Port.nextWork { q with sweep := some (Sweep.create a range) } := by
      simp [sweepCommand, service, known, free, none]
    exact ⟨_, run.trans (congrArg _ creates), respond_modPort_spec ..⟩

theorem addTag_work (tag : Word16) (p : PortId) (s : State) : PortWork p s (addTag tag p s) :=
  ⟨rfl, rfl, rfl, rfl, ⟨rfl, rfl, rfl, rfl⟩, rfl, rfl, fun _ _ => rfl, .inl rfl⟩

theorem State.liveTag_isSome {s : State} {tag : Word16} :
    (s.liveTag tag).isSome = true ↔ ∃ e ∈ s.cmd.live, e.tag = tag := by
  simp [State.liveTag]

/-- An accepted transaction enters the queue with its attempts filled in; an empty queue decides (R60). -/
theorem Port.accept_eq (q : Port) (x : Txn) : q.accept x =
    let record := { x with attempts := if x.attempts = 0 then q.settings.attempts.toNat else x.attempts }
    if q.queue = [] then Port.nextWork { q with queue := [record] }
    else { q with queue := insertTxn record q.queue } := by
  have filled : q.fillAttempts x =
      { x with attempts := if x.attempts = 0 then q.settings.attempts.toNat else x.attempts } := by
    unfold Port.fillAttempts
    split <;> rfl
  simp only [Port.accept, filled, List.isEmpty_iff]
  by_cases empty : q.queue = []
  · rw [if_pos empty, if_pos empty]
    congr 2
    rw [empty]
    cases x.cls <;> simp [insertTxn]
  · rw [if_neg empty, if_neg empty]

section
variable {s : State} {p : PortId} {x : Txn}

theorem submitCheck_dozing (dozes : (s.port p).state = .doze) : submitCheck s p x = some .portDozing := by
  simp [submitCheck, dozes]

theorem submitCheck_not_receiving (awake : (s.port p).state ≠ .doze) (out : (s.port p).state.receives = false) :
    submitCheck s p x = some .portState := by
  simp [submitCheck, awake, out]

theorem submitCheck_duplicate (on : (s.port p).state.receives = true) (live : ∃ e ∈ s.cmd.live, e.tag = x.tag) :
    submitCheck s p x = some .duplicateTag := by
  have awake : (s.port p).state ≠ .doze := fun dozes => by rw [dozes] at on; cases on
  simp [submitCheck, awake, on, State.liveTag_isSome.2 live]

/-- On a port that receives, for a tag that is not live, the station and the queue remain to be checked. -/
theorem submitCheck_fresh (on : (s.port p).state.receives = true) (fresh : ∀ e ∈ s.cmd.live, e.tag ≠ x.tag) :
    submitCheck s p x = ((s.port p).stationCheck x).or
      (if Config.queuePlaces ≤ (s.port p).queue.length then some .queueFull else none) := by
  have awake : (s.port p).state ≠ .doze := fun dozes => by rw [dozes] at on; cases on
  have notLive : (s.liveTag x.tag).isSome = false := Bool.eq_false_iff.2 fun live => by
    obtain ⟨e, mem, same⟩ := State.liveTag_isSome.1 live
    exact fresh e mem same
  simp only [submitCheck, awake, on, notLive, if_false, Bool.not_true, Bool.false_eq_true]
  rcases (s.port p).stationCheck x with _ | r <;> rfl

theorem Port.stationCheck_absent {q : Port} {a : Addr} (station : x.station = some a) (absent : q.station a = none) :
    q.stationCheck x = some .unknownStation := by
  simp [Port.stationCheck, station, absent]

theorem Port.stationCheck_quarantined {q : Port} {a : Addr} {e : Station} (station : x.station = some a)
    (known : q.station a = some e) (quarantined : e.state = .quarantined) :
    q.stationCheck x = some .stationQuarantined := by
  simp [Port.stationCheck, station, known, quarantined]

theorem Port.stationCheck_passes {q : Port}
    (stations : ∀ a, x.station = some a → ∃ e, q.station a = some e ∧ e.state ≠ .quarantined) :
    q.stationCheck x = none := by
  rcases station : x.station with _ | a
  · simp [Port.stationCheck, station]
  · obtain ⟨e, known, free⟩ := stations a station
    simp [Port.stationCheck, station, known, free]

end

/-- An accepted SUBMIT (R60). -/
theorem submit_accepted {s : State} {f : HostFrame} {p : PortId} {x : Txn}
    (passes : submitCheck s.popFrame p x = none) :
    let t := submit f p x s.popFrame
    Answered s t f .ok [] ∧ Reported s t [] ∧ t.trim = s.trim ∧ t.cmd.draining = s.cmd.draining ∧
    t.cmd.live = s.cmd.live ++ [⟨x.tag, p⟩] ∧ (∀ p', p' ≠ p → t.port p' = s.port p') ∧
    t.port p = ((s.port p).accept x).refresh := by
  have accepts : submit f p x s.popFrame =
      (addTag x.tag p (respond f .ok [] s.popFrame)).modPort p fun q => q.accept x := by rw [submit, passes]
  rw [accepts]
  obtain ⟨answered, trim, draining, others⟩ := answered_of_portWork
    ((addTag_work x.tag p (respond f .ok [] s.popFrame)).trans (modPort_work p (fun q => q.accept x) _))
  exact ⟨answered, reported_of_respond (.of_link_eq rfl), trim, draining, rfl, others, State.modPort_port_same ..⟩

/-- Settles O26: R59's checks in order, and R60's entry. -/
theorem submitChecksThenQueues : Obligations.SubmitChecksThenQueues := by
  intro s f p x takes kind ok body q refused
  have run : exec .submit s = .next (submit f p x s.popFrame) :=
    congrArg Host.Outcome.next (takeCommand_ok takes kind (parse := parseSubmit)
      (by rw [body]; exact parseSubmit_body ok p) _)
  have refuses {r : Result} (e : submitCheck s.popFrame p x = some r) : refused r := by
    refine ⟨_, run.trans (congrArg _ ?_), respond_spec f r [] s⟩
    rw [submit, e]
  refine ⟨fun dozes => refuses (submitCheck_dozing dozes),
      fun awake out => refuses (submitCheck_not_receiving awake out),
    fun on => ⟨fun live => refuses (submitCheck_duplicate on live), fun fresh => ?_⟩⟩
  have check : submitCheck s.popFrame p x = (q.stationCheck x).or
      (if Config.queuePlaces ≤ q.queue.length then some .queueFull else none) := submitCheck_fresh on fresh
  refine ⟨fun a station absent => refuses ?_, fun a e station known quarantined => refuses ?_, fun stations => ?_⟩
  · rw [check, Port.stationCheck_absent station absent]; rfl
  · rw [check, Port.stationCheck_quarantined station known quarantined]; rfl
  · rw [Port.stationCheck_passes stations, Option.none_or] at check
    refine ⟨fun full => refuses (check.trans (if_pos full)), fun room => ?_⟩
    obtain ⟨answered, reported, trim, draining, live, others, own⟩ :=
      submit_accepted (f := f) (check.trans (if_neg (Nat.not_le.mpr room)))
    exact ⟨_, run, answered, reported, trim, draining, live, others, own.trans (by rw [Port.accept_eq])⟩

/-- The frame of CANCEL's filters. -/
theorem filter_tag_bne (queue : List Txn) (tag : Word16) :
    (queue.filter fun u => u.tag != tag) = queue.filter fun u => decide (u.tag ≠ tag) :=
  List.filter_congr fun u _ => by simp [bne, beq_eq_decide]

theorem filter_liveTag_bne (live : List LiveTag) (tag : Word16) :
    (live.filter fun e => e.tag != tag) = live.filter fun e => decide (e.tag ≠ tag) :=
  List.filter_congr fun e _ => by simp [bne, beq_eq_decide]

/-- Settles O27: NOT_FOUND, IN_FLIGHT, or the queued transaction finished as CANCELLED. -/
theorem cancelRemovesAQueuedTransaction : Obligations.CancelRemovesAQueuedTransaction := by
  intro s f t0 t1 takes kind body nonzero tag
  have run : exec .cancel s = .next (cancel f tag s.popFrame) :=
    congrArg Host.Outcome.next (takeCommand_ok takes kind (parse := parseCancel)
      (by rw [body]; exact parseCancel_body nonzero) _)
  have refuses {r : Result} (e : cancel f tag s.popFrame = respond f r [] s.popFrame) :
      ∃ t, exec .cancel s = .next t ∧ Refused s t f r := ⟨_, run.trans (congrArg _ e), respond_spec ..⟩
  refine ⟨fun unknown => refuses ?_, fun p live => ?_⟩
  · have : s.popFrame.liveTag tag = none := by simpa [State.liveTag] using unknown
    rw [cancel, this]
  have live' : s.popFrame.liveTag tag = some ⟨tag, p⟩ := live
  refine ⟨fun gone => refuses ?_, fun queued room => ?_⟩
  · have : (s.popFrame.port p).queue.find? (fun t => t.tag == tag) = none := by simpa using gone
    simp only [cancel, live', this]
  · obtain ⟨x, found, same⟩ : ∃ x, (s.port p).queue.find? (fun t => t.tag == tag) = some x ∧ x.tag = tag := by
      have some : ((s.port p).queue.find? fun t => t.tag == tag).isSome = true := by simpa using queued
      obtain ⟨x, found⟩ := Option.isSome_iff_exists.1 some
      exact ⟨x, found, by simpa using List.find?_some found⟩
    have cancels : cancel f tag s.popFrame = finish p x .cancelled 0 none
        ((respond f .ok [] s.popFrame).modPort p fun q => { q with
            queue := q.queue.filter fun u => u.tag != tag }) := by
      simp only [cancel, live', State.popFrame_port, found]
    obtain ⟨posts, tags, own⟩ := finish_leaves p x (o := .cancelled) rfl 0 none
      ((respond f .ok [] s.popFrame).modPort p fun q => { q with queue := q.queue.filter fun u => u.tag != tag })
    obtain ⟨answered, trim, draining, others⟩ := answered_of_portWork
      ((modPort_work p _ (respond f .ok [] s.popFrame)).trans (finish_work p x .cancelled 0 none _))
    have reported := (posts (respond_room room)).reported
    rw [same] at reported tags
    refine ⟨_, run.trans (congrArg _ cancels), answered, reported_of_respond reported, trim, draining, ?_, others, ?_⟩
    · rw [← filter_liveTag_bne]; exact tags
    · rw [← filter_tag_bne]
      rcases own with e | e <;> rw [e, State.modPort_port_same] <;> rfl

end Sys2Proof.Machine

/-! SUPPORT. The common checks of R165, each command's reader against its line of R164 (O12), and the bytes of the
status responses and the notices (O14). -/

namespace Sys2Proof.Machine

/-! ### A reader and its line -/

/-- `parse` refuses what the line excludes: a length, then a port, then a field (R165). -/
structure HostRow.RefusedBy {α : Type} (row : HostRow) (parse : List Byte → Parsed α) : Prop where
  length : ∀ body, (body.length < row.least ∨ row.most < body.length) → parse body = .error .badLength
  port : row.namesPort = true → ∀ (b : Byte) (rest : List Byte), row.least ≤ (b :: rest).length →
    (b :: rest).length ≤ row.most → 7 < b.toNat → parse (b :: rest) = .error .badPort
  value : ∀ body, row.least ≤ body.length → body.length ≤ row.most →
    (row.namesPort = true → ∃ b rest, body = b :: rest ∧ b.toNat ≤ 7) → row.inRange body = false →
    parse body = .error .badValue

theorem parsePort_ok {b : Byte} (small : b.toNat ≤ 7) : ∃ p, parsePort b = .ok p :=
  ⟨⟨b.toNat, by omega⟩, dif_pos (by omega)⟩

theorem parsePort_bad {b : Byte} (large : 7 < b.toNat) : parsePort b = .error .badPort := dif_neg (by omega)

theorem inRange_bind_rejects {β : Type} {ok : Bool} {k : Unit → Parsed β}
    (rest : ok = true → k () = .error .badValue) : (inRange ok >>= k) = .error .badValue := by
  cases ok with
  | false => rfl
  | true => exact rest rfl

/-! ### The readers' fields -/

theorem addrOf_some {b : Byte} {a : Addr} (read : addrOf b = some a) : 1 ≤ b.toNat ∧ b.toNat ≤ 63 := by
  unfold addrOf at read
  split at read
  · cases read
  · omega

theorem rangeOf_some {b : Byte} {r : ThRange} (read : rangeOf b = some r) : 1 ≤ b.toNat ∧ b.toNat ≤ 2 := by
  unfold rangeOf at read
  split at read
  · next e => rw [e]; decide
  · split at read
    · next e => rw [e]; decide
    · cases read

theorem calKindOf_some {b : Byte} {k : CalKind} (read : calKindOf b = some k) : 1 ≤ b.toNat ∧ b.toNat ≤ 2 := by
  unfold calKindOf at read
  split at read
  · next e => rw [e]; decide
  · split at read
    · next e => rw [e]; decide
    · cases read

theorem thCodeOf_some {b : Byte} {c : ThCode} (read : thCodeOf b = some c) : b.toNat ≤ 31 := by
  unfold thCodeOf at read
  split at read
  · omega
  · cases read

theorem roleOf_some {b : Byte} {c : Option TermCode} (read : roleOf b = some c) : b.toNat ≤ 7 := by
  by_contra large
  rw [roleOf_out (by omega)] at read
  cases read

theorem flagOf_some {b : Byte} {c : Bool} (read : flagOf b = some c) : b.toNat ≤ 1 := by
  by_contra large
  rw [flagOf_out (by omega)] at read
  cases read

/-! ### Each reader refuses what its line excludes -/

theorem parseEmpty_refuses (c : Instr) (k : Nat) : HostRow.RefusedBy ⟨c, k, 0, 0, false, [[]]⟩ parseEmpty where
  length := fun body out => by
    unfold parseEmpty
    split
    · simp at out
    · rfl
  port := nofun
  value := fun body _ _ _ out => by simp [HostRow.inRange] at out

theorem parsePortOnly_refuses (c : Instr) (k : Nat) : HostRow.RefusedBy ⟨c, k, 1, 1, true, [[]]⟩ parsePortOnly where
  length := fun body out => by
    unfold parsePortOnly
    split
    · simp at out
    · rfl
  port := fun _ b rest least most large => by
    have : rest = [] := List.length_eq_zero_iff.1 (by simpa using most)
    subst this
    exact parsePort_bad large
  value := fun body _ _ _ out => by simp [HostRow.inRange] at out

theorem parseDrift_refuses (c : Instr) (k : Nat) :
    HostRow.RefusedBy ⟨c, k, 4, 4, false, [[⟨0, 2, [(0, 20000)]⟩, ⟨2, 2, [(0, 50000)]⟩]]⟩ parseDrift where
  length := fun body out => by
    unfold parseDrift
    split
    · simp at out
    · rfl
  port := nofun
  value := fun body least most _ out => by
    have len : body.length = 4 := Nat.le_antisymm most least
    match body, len with
    | [t0, t1, v0, v1], _ =>
      simp [HostRow.inRange, FieldRange.holds] at out
      refine parseDrift_out ?_
      rw [toNat_word, toNat_word]
      omega

theorem parseEnable_refuses (c : Instr) (k : Nat) : HostRow.RefusedBy
    ⟨c, k, 5, 5, true, [[byteField 1 0 5, byteField 2 2 15, byteField 3 1 255, byteField 4 1 4]]⟩ parseEnable where
  length := fun body out => by
    unfold parseEnable
    split
    · simp at out
    · rfl
  port := fun _ b rest least most large => by
    have len : rest.length = 4 := Nat.succ.inj (Nat.le_antisymm most least)
    match rest, len with
    | [_, _, _, _], _ =>
      simp only [parseEnable, parsePort_bad large]
      rfl
  value := fun body least most port out => by
    have len : body.length = 5 := Nat.le_antisymm most least
    obtain ⟨b, rest, rfl, small⟩ := port rfl
    obtain ⟨p, isPort⟩ := parsePort_ok small
    match rest, len with
    | [rate, gap, timeout, attempts], _ =>
      simp [HostRow.inRange, FieldRange.holds, byteField] at out
      simp only [parseEnable, isPort, parsed_ok_bind]
      refine inRange_bind_rejects fun ok => ?_
      have := of_decide_eq_true ok
      omega

theorem parseProfile_refuses (c : Instr) (k : Nat) : HostRow.RefusedBy
    ⟨c, k, 5, 5, true, [[byteField 1 0 7, byteField 2 0 7, byteField 3 0 7, byteField 4 0 1]]⟩ parseProfile where
  length := fun body out => by
    unfold parseProfile
    split
    · simp at out
    · rfl
  port := fun _ b rest least most large => by
    have len : rest.length = 4 := Nat.succ.inj (Nat.le_antisymm most least)
    match rest, len with
    | [_, _, _, _], _ =>
      simp only [parseProfile, parsePort_bad large]
      rfl
  value := fun body least most port out => by
    have len : body.length = 5 := Nat.le_antisymm most least
    obtain ⟨b, rest, rfl, small⟩ := port rfl
    obtain ⟨p, isPort⟩ := parsePort_ok small
    match rest, len with
    | [park, nominal, listen, hold], _ =>
      simp [HostRow.inRange, FieldRange.holds, byteField] at out
      simp only [parseProfile, isPort, parsed_ok_bind]
      refine value_bind_rejects fun _ isPark => value_bind_rejects fun _ isNominal =>
          value_bind_rejects fun _ isListen =>
        value_bind_rejects fun _ isHold => ?_
      have := roleOf_some isPark
      have := roleOf_some isNominal
      have := roleOf_some isListen
      have := flagOf_some isHold
      omega

theorem parseCalibrate_refuses (c : Instr) (k : Nat) : HostRow.RefusedBy
    ⟨c, k, 2, 2, true, [[byteField 1 1 2]]⟩ parseCalibrate where
  length := fun body out => by
    unfold parseCalibrate
    split
    · simp at out
    · rfl
  port := fun _ b rest least most large => by
    have len : rest.length = 1 := Nat.succ.inj (Nat.le_antisymm most least)
    match rest, len with
    | [_], _ =>
      simp only [parseCalibrate, parsePort_bad large]
      rfl
  value := fun body least most port out => by
    have len : body.length = 2 := Nat.le_antisymm most least
    obtain ⟨b, rest, rfl, small⟩ := port rfl
    obtain ⟨p, isPort⟩ := parsePort_ok small
    match rest, len with
    | [k], _ =>
      simp [HostRow.inRange, FieldRange.holds, byteField] at out
      simp only [parseCalibrate, isPort, parsed_ok_bind]
      refine value_bind_rejects fun _ isKind => ?_
      have := calKindOf_some isKind
      omega

theorem parseAdd_refuses (c : Instr) (k : Nat) : HostRow.RefusedBy
    ⟨c, k, 4, 4, true, [[addressField, byteField 2 1 2, ⟨3, 1, [(0, 31), (255, 255)]⟩]]⟩ parseAdd where
  length := fun body out => by
    unfold parseAdd
    split
    · simp at out
    · rfl
  port := fun _ b rest least most large => by
    have len : rest.length = 3 := Nat.succ.inj (Nat.le_antisymm most least)
    match rest, len with
    | [_, _, _], _ =>
      simp only [parseAdd, parsePort_bad large]
      rfl
  value := fun body least most port out => by
    have len : body.length = 4 := Nat.le_antisymm most least
    obtain ⟨b, rest, rfl, small⟩ := port rfl
    obtain ⟨p, isPort⟩ := parsePort_ok small
    match rest, len with
    | [a, range, code], _ =>
      simp [HostRow.inRange, FieldRange.holds, byteField, addressField] at out
      simp only [parseAdd, isPort, parsed_ok_bind]
      refine value_bind_rejects fun _ isAddr => value_bind_rejects fun _ isRange => ?_
      have := addrOf_some isAddr
      have := rangeOf_some isRange
      split
      · next isDefault =>
        rw [isDefault] at out
        simp at out
        omega
      · refine value_bind_rejects fun _ isCode => ?_
        have := thCodeOf_some isCode
        omega

theorem parseStation_refuses (c : Instr) (k : Nat) : HostRow.RefusedBy
    ⟨c, k, 2, 2, true, [[addressField]]⟩ parseStation where
  length := fun body out => by
    unfold parseStation
    split
    · simp at out
    · rfl
  port := fun _ b rest least most large => by
    have len : rest.length = 1 := Nat.succ.inj (Nat.le_antisymm most least)
    match rest, len with
    | [_], _ =>
      simp only [parseStation, parsePort_bad large]
      rfl
  value := fun body least most port out => by
    have len : body.length = 2 := Nat.le_antisymm most least
    obtain ⟨b, rest, rfl, small⟩ := port rfl
    obtain ⟨p, isPort⟩ := parsePort_ok small
    match rest, len with
    | [a], _ =>
      simp [HostRow.inRange, FieldRange.holds, byteField, addressField] at out
      simp only [parseStation, isPort, parsed_ok_bind]
      refine value_bind_rejects fun _ isAddr => ?_
      have := addrOf_some isAddr
      omega

theorem parseThreshold_refuses (c : Instr) (k : Nat) : HostRow.RefusedBy
    ⟨c, k, 4, 4, true, [[addressField, byteField 2 1 2, byteField 3 0 31]]⟩ parseThreshold where
  length := fun body out => by
    unfold parseThreshold
    split
    · simp at out
    · rfl
  port := fun _ b rest least most large => by
    have len : rest.length = 3 := Nat.succ.inj (Nat.le_antisymm most least)
    match rest, len with
    | [_, _, _], _ =>
      simp only [parseThreshold, parsePort_bad large]
      rfl
  value := fun body least most port out => by
    have len : body.length = 4 := Nat.le_antisymm most least
    obtain ⟨b, rest, rfl, small⟩ := port rfl
    obtain ⟨p, isPort⟩ := parsePort_ok small
    match rest, len with
    | [a, range, code], _ =>
      simp [HostRow.inRange, FieldRange.holds, byteField, addressField] at out
      simp only [parseThreshold, isPort, parsed_ok_bind]
      refine value_bind_rejects fun _ isAddr => value_bind_rejects fun _ isRange =>
          value_bind_rejects fun _ isCode => ?_
      have := addrOf_some isAddr
      have := rangeOf_some isRange
      have := thCodeOf_some isCode
      omega

theorem parseSweep_refuses (c : Instr) (k : Nat) : HostRow.RefusedBy
    ⟨c, k, 3, 3, true, [[addressField, byteField 2 1 2]]⟩ parseSweep where
  length := fun body out => by
    unfold parseSweep
    split
    · simp at out
    · rfl
  port := fun _ b rest least most large => by
    have len : rest.length = 2 := Nat.succ.inj (Nat.le_antisymm most least)
    match rest, len with
    | [_, _], _ =>
      simp only [parseSweep, parsePort_bad large]
      rfl
  value := fun body least most port out => by
    have len : body.length = 3 := Nat.le_antisymm most least
    obtain ⟨b, rest, rfl, small⟩ := port rfl
    obtain ⟨p, isPort⟩ := parsePort_ok small
    match rest, len with
    | [a, range], _ =>
      simp [HostRow.inRange, FieldRange.holds, byteField, addressField] at out
      simp only [parseSweep, isPort, parsed_ok_bind]
      refine value_bind_rejects fun _ isAddr => value_bind_rejects fun _ isRange => ?_
      have := addrOf_some isAddr
      have := rangeOf_some isRange
      omega

theorem parseCancel_refuses (c : Instr) (k : Nat) :
    HostRow.RefusedBy ⟨c, k, 2, 2, false, [[⟨0, 2, [(1, 65535)]⟩]]⟩ parseCancel where
  length := fun body out => by
    unfold parseCancel
    split
    · simp at out
    · rfl
  port := nofun
  value := fun body least most _ out => by
    have len : body.length = 2 := Nat.le_antisymm most least
    match body, len with
    | [t0, t1], _ =>
      simp [HostRow.inRange, FieldRange.holds] at out
      refine inRange_bind_rejects fun ok => ?_
      have nonzero : (word t0 t1).toNat ≠ 0 := fun e =>
        bne_iff_ne.1 ok (BitVec.eq_of_toNat_eq (by simpa using e))
      rw [toNat_word] at nonzero
      omega

/-! ### SUBMIT -/

theorem classOf_some {b : Byte} {c : TxnClass} (read : classOf b = some c) : 1 ≤ b.toNat ∧ b.toNat ≤ 2 := by
  unfold classOf at read
  split at read
  · next e => rw [e]; decide
  · split at read
    · next e => rw [e]; decide
    · cases read

/-- What SUBMIT's kind, station and reply limit hold once they have been read: one of the three forms of R58. -/
theorem submit_form {k st lim : Byte} {kind : TxnKind} {station : Option Addr} {limit : Option Nat}
    (isKind : txnKindOf k = some kind) (isStation : txnStationOf kind st = some station)
    (isLimit : replyLimitOf kind lim = some limit) :
    (k.toNat = 1 ∧ 1 ≤ st.toNat ∧ st.toNat ≤ 63 ∧ lim.toNat ≤ 48) ∨
    (k.toNat = 2 ∧ 1 ≤ st.toNat ∧ st.toNat ≤ 63 ∧ lim.toNat = 0) ∨
    (k.toNat = 3 ∧ st.toNat = 0 ∧ lim.toNat = 0) := by
  have zero {b : Byte} {α : Type} {x y : α} (h : (if b = 0 then some x else none) = some y) : b.toNat = 0 := by
    split at h
    · next e => rw [e]; rfl
    · cases h
  unfold txnKindOf at isKind
  split at isKind
  · next is =>
    cases isKind
    obtain ⟨a, read, -⟩ := Option.map_eq_some_iff.1 isStation
    obtain ⟨low, high⟩ := addrOf_some read
    by_cases small : lim.toNat ≤ Config.maxCount
    · exact .inl ⟨by rw [is]; rfl, low, high, small⟩
    · rw [replyLimitOf, if_neg small] at isLimit
      cases isLimit
  split at isKind
  · next is =>
    cases isKind
    obtain ⟨a, read, -⟩ := Option.map_eq_some_iff.1 isStation
    obtain ⟨low, high⟩ := addrOf_some read
    exact .inr (.inl ⟨by rw [is]; rfl, low, high, zero isLimit⟩)
  split at isKind
  · next is =>
    cases isKind
    exact .inr (.inr ⟨by rw [is]; rfl, zero isStation, zero isLimit⟩)
  · cases isKind

/-- A BODY of SUBMIT in one of the three forms is in range. -/
theorem submit_inRange {c : Instr} {n : Nat} {b t0 t1 k cls st at' lim : Byte} {payload : List Byte}
    (tag : word t0 t1 ≠ 0) (isClass : 1 ≤ cls.toNat ∧ cls.toNat ≤ 2) (attempts : at'.toNat ≤ 4)
    (form : (k.toNat = 1 ∧ 1 ≤ st.toNat ∧ st.toNat ≤ 63 ∧ lim.toNat ≤ 48) ∨
      (k.toNat = 2 ∧ 1 ≤ st.toNat ∧ st.toNat ≤ 63 ∧ lim.toNat = 0) ∨
      (k.toNat = 3 ∧ st.toNat = 0 ∧ lim.toNat = 0)) :
    HostRow.inRange ⟨c, n, 8, 56, true,
      [submitFields ++ [byteField 3 1 1, byteField 5 1 63, byteField 7 0 48],
       submitFields ++ [byteField 3 2 2, byteField 5 1 63, byteField 7 0 0],
       submitFields ++ [byteField 3 3 3, byteField 5 0 0, byteField 7 0 0]]⟩
      (b :: t0 :: t1 :: k :: cls :: st :: at' :: lim :: payload) = true := by
  have nonzero : t1.toNat * 256 + t0.toNat ≠ 0 := fun e =>
    tag (BitVec.eq_of_toNat_eq (by rw [toNat_word]; simp; omega))
  have := t0.isLt
  have := t1.isLt
  simp [HostRow.inRange, FieldRange.holds, byteField, submitFields]
  omega

theorem parseSubmit_refuses (c : Instr) (n : Nat) : HostRow.RefusedBy ⟨c, n, 8, 56, true,
    [submitFields ++ [byteField 3 1 1, byteField 5 1 63, byteField 7 0 48],
     submitFields ++ [byteField 3 2 2, byteField 5 1 63, byteField 7 0 0],
     submitFields ++ [byteField 3 3 3, byteField 5 0 0, byteField 7 0 0]]⟩ parseSubmit where
  length := fun body out => by
    unfold parseSubmit
    split
    · next payload =>
      rw [if_pos]
      simp only [List.length_cons, Config.maxCount] at out ⊢
      omega
    · rfl
  port := fun _ b rest least most large => by
    match rest, least with
    | t0 :: t1 :: k :: cls :: st :: at' :: lim :: payload, _ =>
      have fits : ¬ Config.maxCount < payload.length := by
        simp only [List.length_cons, Config.maxCount] at most ⊢
        omega
      simp only [parseSubmit, if_neg fits, parsePort_bad large]
      rfl
  value := fun body least most port out => by
    obtain ⟨b, rest, rfl, small⟩ := port rfl
    obtain ⟨p, isPort⟩ := parsePort_ok small
    match rest, least with
    | t0 :: t1 :: k :: cls :: st :: at' :: lim :: payload, _ =>
      have fits : ¬ Config.maxCount < payload.length := by
        simp only [List.length_cons, Config.maxCount] at most ⊢
        omega
      simp only [parseSubmit, if_neg fits, isPort, parsed_ok_bind]
      refine inRange_bind_rejects fun tag => value_bind_rejects fun kind isKind => value_bind_rejects fun _ isClass =>
        value_bind_rejects fun _ isStation => inRange_bind_rejects fun attempts =>
            value_bind_rejects fun _ isLimit => ?_
      rw [submit_inRange (bne_iff_ne.1 tag) (classOf_some isClass) (of_decide_eq_true attempts)
        (submit_form isKind isStation isLimit)] at out
      cases out

/-! ### The three checks at a command -/

/-- What the common checks make of a frame of the line. -/
def HostRow.Checked (row : HostRow) (s : State) (f : HostFrame) : Prop :=
  ((f.body.length < row.least ∨ row.most < f.body.length) →
    ∃ t, exec row.command s = .next t ∧ Refused s t f .badLength) ∧
  (row.namesPort = true → ∀ (b : Byte) (rest : List Byte), f.body = b :: rest → row.least ≤ f.body.length →
    f.body.length ≤ row.most → 7 < b.toNat → ∃ t, exec row.command s = .next t ∧ Refused s t f .badPort) ∧
  (row.least ≤ f.body.length → f.body.length ≤ row.most →
    (row.namesPort = true → ∃ b rest, f.body = b :: rest ∧ b.toNat ≤ 7) → row.inRange f.body = false →
    ∃ t, exec row.command s = .next t ∧ Refused s t f .badValue)

/-- A command whose reader refuses what its line excludes makes the three checks. -/
theorem HostRow.RefusedBy.checked {α : Type} {row : HostRow} {parse : List Byte → Parsed α}
    (refuses : row.RefusedBy parse) {run : HostFrame → α → State → State} {s : State} {f : HostFrame}
    (takes : s.Takes f) (kind : f.kind.toNat = row.kind)
    (reads : exec row.command s = .next (takeCommand (BitVec.ofNat 8 row.kind) parse run s)) : row.Checked s f := by
  have isKind : f.kind = BitVec.ofNat 8 row.kind := by rw [← kind, BitVec.ofNat_toNat, BitVec.setWidth_eq]
  refine ⟨fun out => ?_, fun names b rest body least most large => ?_, fun least most port out => ?_⟩
  · exact ⟨_, reads, takeCommand_refused takes isKind (refuses.length _ out) run⟩
  · refine ⟨_, reads, takeCommand_refused takes isKind ?_ run⟩
    rw [body] at least most ⊢
    exact refuses.port names b rest least most large
  · exact ⟨_, reads, takeCommand_refused takes isKind (refuses.value _ least most port out) run⟩

theorem hostRows_checked {row : HostRow} (mem : row ∈ hostRows) {s : State} {f : HostFrame} (takes : s.Takes f)
    (kind : f.kind.toNat = row.kind) : row.Checked s f := by
  simp only [hostRows, hostRowsFirst, hostRowsSecond, hostRowsThird, List.cons_append, List.nil_append,
    List.mem_cons, List.not_mem_nil, or_false] at mem
  rcases mem with rfl | rfl | rfl | rfl | rfl | rfl | rfl | rfl | rfl | rfl | rfl | rfl | rfl | rfl | rfl | rfl |
    rfl | rfl | rfl
  · exact (parseEmpty_refuses ..).checked takes kind rfl
  · exact (parseEmpty_refuses ..).checked takes kind rfl
  · exact (parseEmpty_refuses ..).checked takes kind rfl
  · exact (parseDrift_refuses ..).checked takes kind rfl
  · exact (parseEnable_refuses ..).checked takes kind rfl
  · exact (parsePortOnly_refuses ..).checked takes kind rfl
  · exact (parsePortOnly_refuses ..).checked takes kind rfl
  · exact (parsePortOnly_refuses ..).checked takes kind rfl
  · exact (parseProfile_refuses ..).checked takes kind rfl
  · exact (parseCalibrate_refuses ..).checked takes kind rfl
  · exact (parseAdd_refuses ..).checked takes kind rfl
  · exact (parseStation_refuses ..).checked takes kind rfl
  · exact (parseStation_refuses ..).checked takes kind rfl
  · exact (parseThreshold_refuses ..).checked takes kind rfl
  · exact (parseStation_refuses ..).checked takes kind rfl
  · exact (parseSweep_refuses ..).checked takes kind rfl
  · exact (parseSubmit_refuses ..).checked takes kind rfl
  · exact (parseCancel_refuses ..).checked takes kind rfl
  · exact (parsePortOnly_refuses ..).checked takes kind rfl

/-! ### DOZE and the unknown KIND -/

theorem commandKinds_toNat : ∀ k ∈ commandKinds, 1 ≤ k.toNat ∧ k.toNat ≤ 20 := by decide

theorem exec_doze {s : State} {f : HostFrame} (takes : s.Takes f) (kind : f.kind = 0x0A) :
    exec (if f.body[1]? = some 2 then .dozeLeave else .dozeEnter) s = .next (takeDoze f s.popFrame) := by
  by_cases leaves : f.body[1]? = some 2
  · rw [if_pos leaves, exec_dozeLeave takes kind leaves]
  · rw [if_neg leaves, exec_dozeEnter takes kind leaves]

theorem parseDoze_length {body : List Byte} (out : body.length ≠ 2) : parseDoze body = .error .badLength := by
  unfold parseDoze
  split
  · exact absurd rfl out
  · rfl

theorem parseDoze_port {b : Byte} (large : 7 < b.toNat) (d : Byte) : parseDoze [b, d] = .error .badPort := by
  simp only [parseDoze, parsePort_bad large]
  rfl

theorem parseDoze_value {b d : Byte} (small : b.toNat ≤ 7) (notEnter : d ≠ 1) (notLeave : d ≠ 2) :
    parseDoze [b, d] = .error .badValue := by
  obtain ⟨p, isPort⟩ := parsePort_ok small
  have out : dozeDirOf d = none := by rw [dozeDirOf, if_neg notEnter, if_neg notLeave]
  simp only [parseDoze, isPort, out]
  rfl

/-- Settles O12: the reader of each line refuses what the line excludes, and a refused frame is only answered. -/
theorem kindLengthAndPortAreChecked : Obligations.KindLengthAndPortAreChecked := by
  refine ⟨fun s f takes unknown => ?_, fun row mem s f takes kind => hostRows_checked mem takes kind,
    fun s f takes kind => ?_⟩
  · have notMine : (!commandKinds.contains f.kind) = true := by
      rw [Bool.not_eq_true', List.contains_eq_mem, decide_eq_false_iff_not]
      intro mem
      have := commandKinds_toNat f.kind mem
      omega
    refine ⟨_, congrArg Host.Outcome.next (takeFrameIf_takes takes notMine _), ?_⟩
    obtain ⟨receiver, inbound, answers, silent, -⟩ := postResponse_spec ⟨0x80, f.seq, .unknownCommand, []⟩ s.popFrame
    exact ⟨rfl, rfl, receiver, inbound, answers, silent, rfl, rfl, fun _ => rfl⟩
  · have run := exec_doze takes kind
    have refuses {r : Result} (parsed : parseDoze f.body = .error r) : ∃ t,
        exec (if f.body[1]? = some 2 then .dozeLeave else .dozeEnter) s = .next t ∧ Refused s t f r :=
      ⟨_, run.trans (congrArg _ (takeDoze_error parsed _)), respond_spec ..⟩
    refine ⟨fun out => refuses (parseDoze_length out), fun b d body large => ?_,
      fun b d body small notEnter notLeave => ?_⟩
    · have bad := refuses (r := .badPort) (by rw [body]; exact parseDoze_port large d)
      simpa [body] using bad
    · have bad := refuses (r := .badValue) (by rw [body]; exact parseDoze_value small notEnter notLeave)
      rwa [body, if_neg (by simpa using notLeave)] at bad

end Sys2Proof.Machine

/-! SUPPORT. The bytes of PORT_STATUS and of the notices (O14). -/

namespace Sys2Proof.Machine

/-! ### Pass maps -/

/-- A pass map byte holds its entries from the lowest bit. -/
theorem passByte_getLsbD (es : List PassEntry) {j : Nat} (small : j < 8) :
    (passByte es).getLsbD j = decide (es[j]? = some .pass) := by
  induction es generalizing j with
  | nil => simp [passByte]
  | cons e es ih =>
    have shift : passByte (e :: es) = (passByte es <<< 1) ||| flagByte (e == .pass) := rfl
    have flag (b : Bool) (i : Nat) : (flagByte b).getLsbD i = (decide (i = 0) && b) := by
      cases b
      · simp [flagByte]
      · rw [flagByte, if_pos rfl]
        rcases i with _ | i
        · rfl
        · simp [BitVec.getLsbD_one]
    rw [shift, BitVec.getLsbD_or, BitVec.getLsbD_shiftLeft, flag]
    rcases j with _ | j
    · cases e <;> rfl
    · simp [small, ih (Nat.lt_of_succ_lt small)]

theorem passMapBytes_getElem (map : List PassEntry) {k : Nat} (small : k < 4) :
    (passMapBytes map)[k]? = some (passByte ((map.drop (8 * k)).take 8)) := by
  interval_cases k <;> rfl

theorem getElem_drop_take (map : List PassEntry) (k : Nat) {j : Nat} (small : j < 8) :
    ((map.drop (8 * k)).take 8)[j]? = map[8 * k + j]? := by
  rw [List.getElem?_take_of_lt small, List.getElem?_drop]

/-- Entry `i` of a pass map is bit `i % 8` of its byte `i / 8` (R170). -/
theorem passMapBytes_bit (map : List PassEntry) {i : Nat} (small : i < 32) :
    ∃ b, (passMapBytes map)[i / 8]? = some b ∧ b.getLsbD (i % 8) = decide (map[i]? = some .pass) := by
  have bit : i % 8 < 8 := Nat.mod_lt _ (by decide)
  refine ⟨_, passMapBytes_getElem map (k := i / 8) (by omega), ?_⟩
  rw [passByte_getLsbD _ bit, getElem_drop_take map _ bit, Nat.div_add_mod]

/-! ### Notices -/

theorem sweepDone_head (p : PortId) (a : Addr) (range : ThRange) (how : SweepEnd) (map : List PassEntry) :
    (Notice.sweepDone p a range how map).body =
        ([portByte p, a.setWidth 8, range.code] ++ how.bytes) ++ passMapBytes map ∧
    ([portByte p, a.setWidth 8, range.code] ++ how.bytes).length = 8 := by
  refine ⟨rfl, ?_⟩
  rcases how with _ | (_ | w) | c <;> rfl

theorem txnDone_body_none (tag : Word16) (p : PortId) (o : TxnOutcome) (used : Nat) :
    (Notice.txnDone tag p o used none).body = le tag ++ [portByte p, o.code, byte used, 0] := by
  simp [Notice.body, byte]

/-! ### PORT_STATUS -/

theorem QuickTimer.remaining_running (ms : Nat) : (QuickTimer.running ms).remaining = if ms = 0 then 1 else ms := by
  rw [QuickTimer.remaining]
  split <;> omega

/-- Settles O14: each byte stands where its list puts it. -/
theorem portStatusBytesStandInPlace : Obligations.PortStatusBytesStandInPlace := by
  refine ⟨fun s f p => ?_, fun r => rfl, fun number n => rfl, fun c => ⟨rfl, rfl⟩,
    fun tag p o used payload => ⟨rfl, rfl, txnDone_body_none tag p o used, ?_⟩, fun r o codes => ⟨rfl, rfl⟩,
    fun p a range how map => ?_, fun p st c => ⟨rfl, rfl⟩, fun p a st c => ⟨rfl, rfl⟩, fun c => ⟨rfl, rfl⟩,
    fun n => ⟨rfl, rfl⟩, fun w => rfl, fun n => rfl, fun n => rfl, fun p => rfl, fun k => ⟨rfl, rfl⟩,
        fun c => ⟨rfl, rfl⟩,
    rfl, rfl, rfl, rfl, rfl, rfl, rfl, rfl, rfl, fun start engine o changed => rfl, fun ms => ⟨rfl, ?_⟩, rfl, rfl,
        rfl, rfl,
    rfl, rfl, rfl, rfl, rfl, rfl⟩
  · intro q d
    obtain ⟨x, y, swept⟩ : ∃ x y, sweepBytes q.sweep = [x, y] := by
      rcases q.sweep with _ | w <;> exact ⟨_, _, rfl⟩
    have data : d = .cons 0 (portStatusData s p) := rfl
    simp [data, portStatusData, swept, le, leNat, PortCounters.bytes, q]
  · simp [Notice.body]
  · obtain ⟨body, length⟩ := sweepDone_head p a range how map
    refine ⟨rfl, ?_, ?_, fun i small => ?_⟩
    · rw [body, List.length_append, length]; rfl
    · rw [body, List.take_left' length]
      rcases how with _ | (_ | w) | c <;> rfl
    · rw [body, List.getElem?_append_right (by omega), length, Nat.add_sub_cancel_left]
      exact passMapBytes_bit map small
  · exact congrArg (fun remaining => [0, remaining, 0]) (QuickTimer.remaining_running ms)

end Sys2Proof.Machine

/-! SUPPORT. The trim unit: what its operations leave and write, and O21, O50 to O52, O54 and O55. -/

namespace Sys2Proof.Machine

/-! ### Granting and releasing the reference -/

theorem grantHead_held {s : State} (held : s.trim.holder ≠ none) : grantHead s = s := by
  unfold grantHead
  split
  · next free _ => exact absurd free held
  · rfl

theorem grantHead_empty {s : State} (empty : s.trim.queue = []) : grantHead s = s := by
  unfold grantHead
  split
  · next queued => rw [empty] at queued; cases queued
  · rfl

theorem grantHead_grants {s : State} {r : Request} {rest : List Request} (free : s.trim.holder = none)
    (queued : s.trim.queue = r :: rest) : grantHead s =
      sendPort r.port (.granted r.number) (s.setTrim { s.trim with queue := rest, holder := some ⟨r, .granted⟩ }) := by
  simp only [grantHead, free, queued]

theorem grantHead_link (s : State) : (grantHead s).link = s.link := by
  unfold grantHead
  split <;> rfl

theorem grantHead_trim {s : State} (free : s.trim.holder = none) :
    (grantHead s).trim = s.trim.granting s.trim.queue := by
  rcases queue : s.trim.queue with _ | ⟨r, rest⟩
  · rw [grantHead_empty queue, TrimUnit.granting, ← free, ← queue]
  · rw [grantHead_grants free queue]
    rfl

/-- A grant reaches the port of the queue head only. -/
theorem grantHead_port {s : State} (free : s.trim.holder = none) (p : PortId) :
    (grantsTo s.trim.queue p = [] → (grantHead s).port p = s.port p) ∧
    (grantsTo s.trim.queue p ≠ [] → (grantHead s).port p =
      Port.refresh { s.port p with fromTrim := (s.port p).fromTrim ++ grantsTo s.trim.queue p }) := by
  rcases queue : s.trim.queue with _ | ⟨r, rest⟩
  · rw [grantHead_empty queue]
    exact ⟨fun _ => rfl, fun grants => absurd rfl grants⟩
  · rw [grantHead_grants free queue]
    by_cases mine : r.port = p
    · subst mine
      simp [grantsTo, sendPort_port]
    · simp [grantsTo, mine, sendPort_port_other _ _ (Ne.symm mine)]

/-- The reference released from `m`, which is `s` with port `p` become `after` and `ns` reported, and the head of the
queue granted. -/
theorem releases_of {s m : State} {p : PortId} {ns : List Notice} {queue : List Request} {after : Port}
    (work : TrimWork s m) (reported : Reported s m ns)
    (trim : m.trim = { s.trim with holder := none, queue := queue }) (own : m.port p = after.refresh)
    (others : ∀ p', p' ≠ p → m.port p' = s.port p') : Releases s (grantHead m) p ns queue after := by
  have free : m.trim.holder = none := by rw [trim]
  have isQueue : m.trim.queue = queue := by rw [trim]
  have whole := work.trans (grantHead_trimWork m)
  refine ⟨whole.unanswered, ?_, whole.cmd, ?_, ?_, fun p' other => ?_⟩
  · simpa only [Reported, grantHead_link] using reported
  · rw [grantHead_trim free, isQueue, trim]
    rcases queue with _ | ⟨r, rest⟩ <;> rfl
  · obtain ⟨none, some⟩ := grantHead_port free p
    rw [isQueue] at none some
    by_cases grants : grantsTo queue p = []
    · rw [none grants, own, grants, List.append_nil]
    · rw [some grants, own]
      rfl
  · have := grantHead_port free p'
    rwa [isQueue, others p' other] at this

/-! ### Reports -/

theorem reportCal_posts (r : Request) (o : CalOutcome) {s : State} (room : s.RoomFor 1) :
    Posts s (reportCal r o s) (calNotices r o (s.port r.port).line.trim) := by
  unfold reportCal calNotices
  split
  · exact postNotice_posts _ s room
  · exact .refl s

@[simp] theorem reportCal_trim (r : Request) (o : CalOutcome) (s : State) : (reportCal r o s).trim = s.trim := by
  unfold reportCal
  split <;> rfl

@[simp] theorem reportCal_port (r : Request) (o : CalOutcome) (s : State) (p : PortId) :
    (reportCal r o s).port p = s.port p := by
  unfold reportCal
  split <;> rfl

theorem calNotices_abandoned (r : Request) (codes : Trim) :
    calNotices r .abandoned codes = [.calDone r .abandoned codes] :=
  if_pos (.inr (.inr (by simp)))

/-! ### The closing of a window -/

/-- What closing reports. -/
def closeNotices (r : Request) (o : WindowOutcome) (codes : Trim) : List Notice :=
  match o.final with
  | some final => calNotices r final codes
  | none => []

/-- The report of a closing window, before the reference is released. -/
def closeReport (r : Request) (o : WindowOutcome) (s : State) : State :=
  match o.final with
  | some final => reportCal r final s
  | none => s

theorem closeReport_posts (r : Request) (o : WindowOutcome) {s : State} (room : s.RoomFor 1) :
    Posts s (closeReport r o s) (closeNotices r o (s.port r.port).line.trim) := by
  cases o with
  | spoiled => exact .refl s
  | done | rail | failed => exact reportCal_posts r _ room

theorem closeReport_trimWork (r : Request) (o : WindowOutcome) (s : State) : TrimWork s (closeReport r o s) := by
  cases o with
  | spoiled => exact .refl s
  | done | rail | failed => exact reportCal_trimWork r _ s

theorem closeReport_port (r : Request) (o : WindowOutcome) (s : State) (p : PortId) :
    (closeReport r o s).port p = s.port p := by
  cases o with
  | spoiled => rfl
  | done | rail | failed => exact reportCal_port r _ s p

/-- The queue once a window has closed: a SPOILED request goes back to its tail (R123). -/
def TrimUnit.queueAfter (u : TrimUnit) (r : Request) (o : WindowOutcome) : List Request :=
  u.queue ++ if decide (o = .spoiled) = true then [{ r with attempt := r.attempt + 1 }] else []

theorem closeWindow_eq (r : Request) (o : WindowOutcome) (s : State) : closeWindow r o s =
    grantHead (sendPort r.port (.closure r.number (decide (o = .spoiled))) ((closeReport r o s).setTrim
      { s.trim with holder := none, queue := s.trim.queueAfter r o })) := by
  cases o <;> simp [closeWindow, closeReport, WindowOutcome.final, TrimUnit.queueAfter]

theorem exec_portMsg_acknowledgement {s : State} {p : PortId} {n : Byte} {rest : List PortMsg}
    (running : s.power = .running) (oldest : (s.port p).toTrim = .acknowledge n :: rest) :
    exec (.acknowledgement p) s = .next (takeAcknowledgement p n (dropPortMsg p s)) :=
  congrArg Host.Outcome.next (takeFromPort_mine running oldest rfl)

/-- Settles O54: the acknowledgement releases the reference, and the closure has the port decide. -/
theorem acknowledgementClosesTheWindow : Obligations.AcknowledgementClosesTheWindow := by
  intro s p running
  refine ⟨fun r rest start changed o oldest mine holder room => ?_,
    fun n requeued rest oldest window current => ?_⟩
  · intro requeued ns
    subst mine
    have run : exec (.acknowledgement r.port) s = .next (closeWindow r o (dropPortMsg r.port s)) := by
      refine (exec_portMsg_acknowledgement running oldest).trans (congrArg _ ?_)
      have held : (dropPortMsg r.port s).trim.holder = some ⟨r, .ending start o changed⟩ := holder
      simp only [takeAcknowledgement, held, and_self, if_true]
    rw [closeWindow_eq] at run
    have reported : closeNotices r o (s.port r.port).line.trim = ns := by cases o <;> rfl
    have posts := closeReport_posts r o (s := dropPortMsg r.port s) room
    have work := (((dropPortMsg_trimWork r.port s).trans (closeReport_trimWork r o _)).trans
      (setTrim_trimWork _ { s.trim with holder := none, queue := s.trim.queueAfter r o })).trans
      (sendPort_trimWork r.port (.closure r.number (decide (o = .spoiled))) _)
    refine ⟨_, run, releases_of work ?_ rfl ?_ fun p' other => ?_⟩
    · have posted := posts.reported
      rw [dropPortMsg_port oldest] at posted
      rw [← reported]
      exact posted
    · rw [sendPort_port, State.setTrim_port, closeReport_port, dropPortMsg_port oldest]
      rfl
    · rw [sendPort_port_other _ _ other, State.setTrim_port, closeReport_port, dropPortMsg_port_other s other]
  · refine modPort_twice_next (congrArg Host.Outcome.next
      (takeFromTrim_acts running oldest rfl (by rw [window]; simp) current.symm)) ?_
    exact (congrArg Port.refresh (if_pos window)).trans (Port.nextWork_congr rfl)

/-! ### Withdrawals -/

theorem exec_withdrawal {s : State} {p : PortId} {n : Byte} {rest : List PortMsg}
    (running : s.power = .running) (oldest : (s.port p).toTrim = .withdraw n :: rest) :
    exec (.withdrawal p) s = .next (takeWithdrawal p n (dropPortMsg p s)) :=
  congrArg Host.Outcome.next (takeFromPort_mine running oldest rfl)

/-- The window-start codes put back, where a window had opened (R124). -/
def restoreCodes (p : PortId) (phase : HolderPhase) (s : State) : State :=
  match phase.startCodes with
  | some start => setCodes p start s
  | none => s

theorem restoreCodes_trimWork (p : PortId) (phase : HolderPhase) (s : State) : TrimWork s (restoreCodes p phase s) := by
  cases phase with
  | granted => exact .refl s
  | measuring start engine => exact setCodes_trimWork p start s
  | ending start o changed => exact setCodes_trimWork p start s

theorem restoreCodes_trim (p : PortId) (phase : HolderPhase) (s : State) : (restoreCodes p phase s).trim = s.trim := by
  cases phase <;> rfl

theorem restoreCodes_link (p : PortId) (phase : HolderPhase) (s : State) : (restoreCodes p phase s).link = s.link := by
  cases phase <;> rfl

theorem restoreCodes_port_other {p p' : PortId} (phase : HolderPhase) (s : State) (other : p' ≠ p) :
    (restoreCodes p phase s).port p' = s.port p' := by
  cases phase with
  | granted => rfl
  | measuring start engine => exact State.modPort_port_other _ _ other
  | ending start o changed => exact State.modPort_port_other _ _ other

/-- The codes of a withdrawn window's port. -/
def withdrawnCodes (phase : HolderPhase) (codes : Trim) : Trim := phase.startCodes.getD codes

theorem setCodes_port (p : PortId) (t : Trim) (s : State) : (setCodes p t s).port p =
    Port.refresh { s.port p with line := { (s.port p).line with trim := t } } := State.modPort_port_same ..

theorem restoreCodes_port (p : PortId) (phase : HolderPhase) (s : State) :
    ((restoreCodes p phase s).port p).refresh = Port.refresh { s.port p with
      line := { (s.port p).line with trim := withdrawnCodes phase (s.port p).line.trim } } := by
  cases phase with
  | granted => rfl
  | measuring start engine => exact (congrArg Port.refresh (setCodes_port ..) :)
  | ending start o changed => exact (congrArg Port.refresh (setCodes_port ..) :)

theorem takeWithdrawal_holder {s : State} {p : PortId} {n : Byte} {r : Request} {phase : HolderPhase}
    (holder : s.trim.holder = some ⟨r, phase⟩) (port : r.port = p) (number : r.number = n) :
    takeWithdrawal p n s = grantHead (reportCal r .abandoned
      (((restoreCodes p phase s).modPort p Port.abandonWindow).setTrim { s.trim with holder := none })) := by
  have mine : s.trim.holder.filter (fun h => h.request.port == p && h.request.number == n) = some ⟨r, phase⟩ := by
    simp [holder, port, number]
  have trim : ((restoreCodes p phase s).modPort p Port.abandonWindow).trim = s.trim := restoreCodes_trim p phase s
  simp only [takeWithdrawal, mine]
  rw [← trim]
  rfl

theorem takeWithdrawal_not_holder {s : State} {p : PortId} {n : Byte}
    (notHeld : ∀ h, s.trim.holder = some h → ¬ (h.request.port = p ∧ h.request.number = n)) :
    s.trim.holder.filter (fun h => h.request.port == p && h.request.number == n) = none := by
  rcases holder : s.trim.holder with _ | h
  · rfl
  · simpa using notHeld h holder

/-- Settles O55: a withdrawal from the holder, from the queue, and from nowhere. -/
theorem withdrawalAbandonsTheCalibration : Obligations.WithdrawalAbandonsTheCalibration := by
  intro s p n rest running oldest q
  have drop : (dropPortMsg p s).port p = q.refresh := dropPortMsg_port oldest
  refine ⟨fun r phase holder port number room => ?_, fun r h holder notHeld found room => ?_,
    fun notHeld notQueued => ?_⟩
  · intro codes
    have isCodes : withdrawnCodes phase q.line.trim = codes := by cases phase <;> rfl
    have run := exec_withdrawal running oldest
    rw [takeWithdrawal_holder (s := dropPortMsg p s) holder port number] at run
    have work := ((dropPortMsg_trimWork p s).trans (restoreCodes_trimWork p phase _)).trans
      (modPort_trimWork p Port.abandonWindow _ (abandonWindow_same _))
    have own : ((restoreCodes p phase (dropPortMsg p s)).modPort p Port.abandonWindow).port p =
        Port.refresh { q with line := { q.line with
          trim := codes, spoilWatch := none
          driver := if q.line.driver = .disconnected then .released else q.line.driver } } := by
      have restored := restoreCodes_port p phase (dropPortMsg p s)
      rw [drop] at restored
      refine (State.modPort_port_same ..).trans ((congrArg (fun u => u.abandonWindow.refresh) restored).trans ?_)
      rw [← isCodes]
      rfl
    obtain ⟨m, isM⟩ : ∃ m, m = (restoreCodes p phase (dropPortMsg p s)).modPort p Port.abandonWindow := ⟨_, rfl⟩
    rw [← isM] at own work run
    have link : m.link = s.link := by rw [isM]; exact restoreCodes_link ..
    have posts := reportCal_posts r .abandoned (s := m.setTrim { s.trim with holder := none })
      (by rw [State.RoomFor, State.setTrim_link, link]; exact room)
    rw [State.setTrim_port, port, own, calNotices_abandoned] at posts
    refine ⟨_, run, releases_of ((work.trans (setTrim_trimWork m _)).trans (reportCal_trimWork r _ _)) ?_ ?_ ?_
      fun p' other => ?_⟩
    · exact (Reported.of_link_eq link).trans posts.reported
    · rw [reportCal_trim]; rfl
    · rw [reportCal_port]; exact own
    · rw [reportCal_port, State.setTrim_port, isM, State.modPort_port_other _ _ other,
        restoreCodes_port_other phase _ other, dropPortMsg_port_other s other]
  · have port : r.port = p := by
      have := List.find?_some found
      simp only [Bool.and_eq_true, beq_iff_eq] at this
      exact this.1
    obtain ⟨u, isU⟩ : ∃ u : TrimUnit, u =
        { s.trim with queue := s.trim.queue.filter fun e => !(e.port == p && e.number == n) } := ⟨_, rfl⟩
    have held : (reportCal r .abandoned ((dropPortMsg p s).setTrim u)).trim.holder ≠ none := by
      rw [reportCal_trim, State.setTrim_trim, isU]
      simp [holder]
    have mine := takeWithdrawal_not_holder (s := s) (p := p) (n := n) fun h' is => by
      rw [holder, Option.some.injEq] at is
      exact is ▸ notHeld
    have run : exec (.withdrawal p) s = .next (reportCal r .abandoned ((dropPortMsg p s).setTrim u)) := by
      refine (exec_withdrawal running oldest).trans (congrArg _ ?_)
      rw [← grantHead_held held, isU]
      have mine' : (dropPortMsg p s).trim.holder.filter (fun h => h.request.port == p && h.request.number == n) =
          none :=
        mine
      have found' : (dropPortMsg p s).trim.queue.find? (fun e => e.port == p && e.number == n) = some r := found
      simp only [takeWithdrawal, mine', found']
      rfl
    have posts := reportCal_posts r .abandoned (s := (dropPortMsg p s).setTrim u) room
    rw [State.setTrim_port, port, drop, calNotices_abandoned] at posts
    have work := ((dropPortMsg_trimWork p s).trans (setTrim_trimWork _ u)).trans (reportCal_trimWork r .abandoned _)
    refine ⟨_, run, work.unanswered, posts.reported, work.cmd, ?_, fun p' other => ?_, ?_⟩
    · rw [reportCal_trim, State.setTrim_trim, isU]
    · rw [reportCal_port, State.setTrim_port, dropPortMsg_port_other s other]
    · rw [reportCal_port, State.setTrim_port, drop]
  · have absent : (dropPortMsg p s).trim.queue.find? (fun e => e.port == p && e.number == n) = none := by
      rw [List.find?_eq_none]
      intro e mem
      simpa using notQueued e mem
    have mine : (dropPortMsg p s).trim.holder.filter (fun h => h.request.port == p && h.request.number == n) = none :=
      takeWithdrawal_not_holder notHeld
    have stale : takeWithdrawal p n (dropPortMsg p s) = dropPortMsg p s := by
      simp only [takeWithdrawal, mine, absent]
    have run := exec_withdrawal running oldest
    rw [stale] at run
    exact ⟨_, run, modPort_quiet p _ s, drop⟩

end Sys2Proof.Machine

/-! SUPPORT. Windows and comparisons: O50, O51 and O52. -/

namespace Sys2Proof.Machine

/-! ### The end of a window -/

theorem endWindow_port (r : Request) (start : Trim) (o : WindowOutcome) (changed : Bool) (s : State) :
    (endWindow r start o changed s).port r.port = Port.refresh { s.port r.port with
      fromTrim := (s.port r.port).fromTrim ++ [.windowEnd r.number o r.kind r.origin changed]
      line := { (s.port r.port).line with spoilWatch := none } } := by
  rw [endWindow, sendPort_port, State.modPort_port_same]
  rfl

theorem endWindow_port_other {r : Request} {p : PortId} (start : Trim) (o : WindowOutcome) (changed : Bool) (s : State)
    (other : p ≠ r.port) : (endWindow r start o changed s).port p = s.port p := by
  rw [endWindow, sendPort_port_other _ _ other, State.modPort_port_other _ _ other]
  rfl

theorem setCodes_port_other {p p' : PortId} (t : Trim) (s : State) (other : p' ≠ p) :
    (setCodes p t s).port p' = s.port p' := State.modPort_port_other _ _ other

/-! ### Windows opened and spoiled -/

theorem startEngine_eq (k : CalKind) (t : Trim) : startEngine k t =
    (if k = .full then .full .pu 32 0 else .quick .pu false, if k = .full then { t with pu := 32 } else t) := by
  cases k <;> rfl

theorem takeSpoil_measuring {s : State} {p : PortId} {r : Request} {start : Trim} {engine : Engine} (mine : r.port = p)
    (holder : s.trim.holder = some ⟨r, .measuring start engine⟩) : takeSpoil p r.number s =
      endWindow r start (if r.attempt < 3 then .spoiled else .failed) false (setCodes p start s) := by
  simp only [takeSpoil, holder, mine, and_self, if_true]
  rfl

theorem takeSpoil_stale {s : State} {p : PortId} {n : Byte}
    (stale : ∀ h, s.trim.holder = some h → h.request.port = p → h.request.number = n →
      ∀ start engine, h.phase ≠ .measuring start engine) : takeSpoil p n s = s := by
  unfold takeSpoil
  split
  · rfl
  · next h holder =>
    split
    · next mine =>
      split
      · next start engine phase => exact absurd phase (stale h holder mine.1 mine.2 start engine)
      · rfl
      · rfl
    · rfl

theorem exec_spoilReport {s : State} {p : PortId} {n : Byte} {rest : List Byte} (running : s.power = .running)
    (oldest : (s.port p).spoils = n :: rest) :
    exec (.spoilReport p) s = .next (takeSpoil p n (s.modPort p fun q => { q with spoils := rest })) := by
  simp only [exec, execSpoilReport, whenRunning_running running, oldest]

/-- The hub once port `p`'s window has opened for `r`: the measurement begins with its first codes, and the line of a
receiving port gives up its driver and watches for spoil reports. -/
def windowOpened (p : PortId) (r : Request) (start : Trim) (engine : Engine) (codes : Trim) (s : State) : State :=
  (setCodes p codes (s.setTrim { s.trim with holder := some ⟨r, .measuring start engine⟩ })).modPort p fun q =>
    if q.state.receives then { q with line := { q.line with driver := .disconnected, spoilWatch := some r.number } }
    else q

theorem takeWindowOpen_granted {s : State} {p : PortId} {r : Request} (mine : r.port = p)
    (holder : s.trim.holder = some ⟨r, .granted⟩) : takeWindowOpen p r.number s =
      windowOpened p r (s.codes p) (startEngine r.kind (s.codes p)).1 (startEngine r.kind (s.codes p)).2 s := by
  have granted : s.trim.holder.filter (fun h => h.request.port == p && h.request.number == r.number &&
      decide (h.phase = .granted)) = some ⟨r, .granted⟩ := by
    rw [holder]
    simp [mine]
  simp only [takeWindowOpen, granted]
  rfl

theorem windowOpened_port {s : State} {p : PortId} (r : Request) (start : Trim) (engine : Engine) (codes : Trim)
    (receives : (s.port p).state.receives = true) : (windowOpened p r start engine codes s).port p = Port.refresh
      { s.port p with line := { (s.port p).line with
          trim := codes, driver := .disconnected, spoilWatch := some r.number } } := by
  rw [windowOpened, State.modPort_port_same, setCodes_port, State.setTrim_port]
  simp only [Port.refresh_state, receives, if_true]
  rfl

theorem windowOpened_port_other {p p' : PortId} (r : Request) (start : Trim) (engine : Engine) (codes : Trim)
    (s : State) (other : p' ≠ p) : (windowOpened p r start engine codes s).port p' = s.port p' := by
  rw [windowOpened, State.modPort_port_other _ _ other, setCodes_port_other _ _ other, State.setTrim_port]

/-- A window opened on a receiving port. -/
theorem windowOpen_granted {s : State} {p : PortId} {r : Request} {rest : List PortMsg} (running : s.power = .running)
    (mine : r.port = p) (oldest : (s.port p).toTrim = .windowOpen r.number :: rest)
    (holder : s.trim.holder = some ⟨r, .granted⟩) : exec (.windowOpen p) s = .next (windowOpened p r
      (s.port p).line.trim (startEngine r.kind (s.port p).line.trim).1 (startEngine r.kind (s.port p).line.trim).2
      (dropPortMsg p s)) := by
  have sameCodes : (dropPortMsg p s).codes p = (s.port p).line.trim :=
    congrArg (fun q => q.line.trim) (dropPortMsg_port oldest)
  refine congrArg Host.Outcome.next ((takeFromPort_mine running oldest rfl).trans ?_)
  rw [← sameCodes]
  exact takeWindowOpen_granted (s := dropPortMsg p s) mine holder

/-- The end of the measurement `r` with the codes `codes`, at its port. -/
theorem endWindow_setCodes_port (r : Request) (start : Trim) (o : WindowOutcome) (changed : Bool) (codes : Trim)
    (s : State) : (endWindow r start o changed (setCodes r.port codes s)).port r.port =
        Port.refresh { s.port r.port with
      fromTrim := (s.port r.port).fromTrim ++ [.windowEnd r.number o r.kind r.origin changed]
      line := { (s.port r.port).line with trim := codes, spoilWatch := none } } := by
  rw [endWindow_port, setCodes_port]
  rfl

/-- A record of spoils already brought up to date makes no difference to the end of the measurement. -/
theorem endWindow_spoils (q : Port) (rest : List Byte) (m : TrimMsg) (codes : Trim) :
    let dropped := Port.refresh { q with spoils := rest }
    Port.refresh { dropped with fromTrim := dropped.fromTrim ++ [m]
                                line := { dropped.line with trim := codes, spoilWatch := none } } =
      Port.refresh { q with spoils := rest, fromTrim := q.fromTrim ++ [m]
                            line := { q.line with trim := codes, spoilWatch := none } } := rfl

/-- Settles O50: the window's opening, its spoiling, and a spoil report that no measurement waits for. -/
theorem windowOpensAndIsSpoiled : Obligations.WindowOpensAndIsSpoiled := by
  intro s p r running mine
  refine ⟨fun rest oldest holder receives => ?opens, fun rest start engine oldest holder => ?spoils,
    fun n rest oldest stale => ?stale⟩
  case opens =>
    have drop : (dropPortMsg p s).port p = Port.refresh { s.port p with toTrim := rest } := dropPortMsg_port oldest
    have receives' : ((dropPortMsg p s).port p).state.receives = true := by rw [drop]; exact receives
    refine ⟨_, windowOpen_granted running mine oldest holder, ?_, .of_link_eq rfl, rfl, fun p' other => ?_, ?_, ?_⟩
    · exact ⟨rfl, rfl, ⟨rfl, rfl, rfl, rfl⟩, rfl, rfl⟩
    · rw [windowOpened_port_other _ _ _ _ _ other, dropPortMsg_port_other s other]
    · rw [startEngine_eq]
      rfl
    · rw [windowOpened_port _ _ _ _ receives', drop, startEngine_eq]
      rfl
  case spoils =>
    have run := exec_spoilReport running oldest
    rw [takeSpoil_measuring (s := s.modPort p _) mine holder] at run
    subst mine
    refine ⟨_, run, ⟨rfl, rfl, ⟨rfl, rfl, rfl, rfl⟩, rfl, rfl⟩, .of_link_eq rfl, rfl, fun p' other => ?_, rfl, ?_⟩
    · rw [endWindow_port_other _ _ _ _ other, setCodes_port_other _ _ other, State.modPort_port_other _ _ other]
    · rw [endWindow_setCodes_port, State.modPort_port_same]
      exact endWindow_spoils ..
  case stale =>
    have run := exec_spoilReport running oldest
    rw [takeSpoil_stale (s := s.modPort p _) stale] at run
    exact modPort_next run rfl

/-! ### Comparisons -/

theorem exec_comparisonDecided {s : State} (running : s.power = .running) (answer : Comparison) :
    exec (.comparisonDecided answer) s = .next (takeComparison answer s) :=
  congrArg Host.Outcome.next (whenRunning_running running _)

/-- A comparison after which the measurement goes on. -/
def comparedMore (r : Request) (start : Trim) (engine : Engine) (codes : Trim) (s : State) : State :=
  setCodes r.port codes (s.setTrim { s.trim with holder := some ⟨r, .measuring start engine⟩ })

/-- The comparison that ends the measurement. -/
def comparedLast (r : Request) (start : Trim) (o : WindowOutcome) (codes : Trim) (s : State) : State :=
  endWindow r start o (codes != start) (setCodes r.port codes s)

section
variable {s : State} {r : Request} {start codes : Trim} {engine engine' : Engine} {answer : Comparison}
  {o : WindowOutcome} (holder : s.trim.holder = some ⟨r, .measuring start engine⟩)
include holder

theorem takeComparison_more (takes : engine.take answer (s.codes r.port) = some (.more engine' codes)) :
    takeComparison answer s = comparedMore r start engine' codes s := by
  simp only [takeComparison, holder, takes, comparedMore]

theorem takeComparison_last (takes : engine.take answer (s.codes r.port) = some (.ended o codes)) :
    takeComparison answer s = comparedLast r start o codes s := by
  simp only [takeComparison, holder, takes, comparedLast]

end

theorem comparedMore_port (r : Request) (start : Trim) (engine : Engine) (codes : Trim) (s : State) :
    (comparedMore r start engine codes s).port r.port =
      Port.refresh { s.port r.port with line := { (s.port r.port).line with trim := codes } } := setCodes_port ..

theorem comparedLast_port (r : Request) (start : Trim) (o : WindowOutcome) (codes : Trim) (s : State) :
    (comparedLast r start o codes s).port r.port = Port.refresh { s.port r.port with
      fromTrim := (s.port r.port).fromTrim ++ [.windowEnd r.number o r.kind r.origin (codes != start)]
      line := { (s.port r.port).line with trim := codes, spoilWatch := none } } := endWindow_setCodes_port ..

/-- Both leave the rest of the hub, but for the holder. -/
theorem comparedMore_rest (r : Request) (start : Trim) (engine : Engine) (codes : Trim) (s : State) :
    Unanswered s (comparedMore r start engine codes s) ∧ Reported s (comparedMore r start engine codes s) [] ∧
    (comparedMore r start engine codes s).cmd = s.cmd ∧
    ∀ p', p' ≠ r.port → (comparedMore r start engine codes s).port p' = s.port p' :=
  ⟨⟨rfl, rfl, ⟨rfl, rfl, rfl, rfl⟩, rfl, rfl⟩, .of_link_eq rfl, rfl, fun _ other => setCodes_port_other _ _ other⟩

theorem comparedLast_rest (r : Request) (start : Trim) (o : WindowOutcome) (codes : Trim) (s : State) :
    Unanswered s (comparedLast r start o codes s) ∧ Reported s (comparedLast r start o codes s) [] ∧
    (comparedLast r start o codes s).cmd = s.cmd ∧
    ∀ p', p' ≠ r.port → (comparedLast r start o codes s).port p' = s.port p' :=
  ⟨⟨rfl, rfl, ⟨rfl, rfl, rfl, rfl⟩, rfl, rfl⟩, .of_link_eq rfl, rfl, fun _ other =>
    (endWindow_port_other _ _ _ _ other).trans (setCodes_port_other _ _ other)⟩

/-- R120's correction by the three answers. -/
theorem quickMove_eq {answer : Comparison} (quick : answer = .down ∨ answer = .up ∨ answer = .hold) (code : TrimCode) :
    quickMove answer code =
      (if answer = .down then (if code = 0 then 0 else code - 1)
       else if answer = .up then (if code = 63 then 63 else code + 1)
       else code,
       decide ((answer = .down ∧ code = 0) ∨ (answer = .up ∧ code = 63))) := by
  rcases quick with rfl | rfl | rfl
  · by_cases rail : code = 0
    · simp [quickMove, rail]
    · simp only [quickMove, reduceCtorEq, false_and, or_false, true_and, if_true, if_neg rail, decide_eq_false rail]
  · by_cases rail : code = 63
    · simp [quickMove, rail]
    · simp only [quickMove, reduceCtorEq, false_and, false_or, true_and, if_true, if_false, if_neg rail,
        decide_eq_false rail]
  · simp [quickMove]

theorem Engine.take_quick {answer : Comparison} (quick : answer = .down ∨ answer = .up ∨ answer = .hold) (leg : Leg)
    (rail : Bool) (t : Trim) : (Engine.quick leg rail).take answer t = some (quickStep leg rail answer t) := by
  rcases quick with rfl | rfl | rfl <;> rfl

theorem Trim.bne_eq_decide (a b : Trim) : (a != b) = decide (a ≠ b) := by simp [bne, beq_eq_decide]

/-- Settles O52: the correction of one leg, and after the last one the window's end. -/
theorem quickComparisonMovesOneStep : Obligations.QuickComparisonMovesOneStep := by
  intro s r start leg rail answer running holder quick codes code atRail moved after o
  have takes := Engine.take_quick quick leg rail codes
  have run := exec_comparisonDecided running answer
  have step : quickMove answer (codes.get leg) =
      (moved, decide ((answer = .down ∧ code = 0) ∨ (answer = .up ∧ code = 63))) := quickMove_eq quick _
  rw [quickStep, step] at takes
  have more (next : Leg) (isNext : leg.next = some next) :
      exec (.comparisonDecided answer) s = .next (comparedMore r start (.quick next atRail) after s) := by
    rw [isNext] at takes
    rw [run, takeComparison_more holder takes]
  have last (isLast : leg.next = none) :
      exec (.comparisonDecided answer) s = .next (comparedLast r start o after s) := by
    rw [isLast] at takes
    rw [run, takeComparison_last holder takes]
  match leg, more, last with
  | .pu, more, _ =>
    have ⟨quiet, silent, cmd, others⟩ := comparedMore_rest r start (.quick .pd atRail) after s
    refine ⟨_, more .pd rfl, quiet, silent, cmd, others, fun next isNext => ?_, fun isLast => nomatch isLast⟩
    rcases isNext with ⟨_, rfl⟩ | ⟨isPd, _⟩
    · exact ⟨rfl, comparedMore_port ..⟩
    · exact nomatch isPd
  | .pd, more, _ =>
    have ⟨quiet, silent, cmd, others⟩ := comparedMore_rest r start (.quick .tc atRail) after s
    refine ⟨_, more .tc rfl, quiet, silent, cmd, others, fun next isNext => ?_, fun isLast => nomatch isLast⟩
    rcases isNext with ⟨isPu, _⟩ | ⟨_, rfl⟩
    · exact nomatch isPu
    · exact ⟨rfl, comparedMore_port ..⟩
  | .tc, _, last =>
    have ⟨quiet, silent, cmd, others⟩ := comparedLast_rest r start o after s
    refine ⟨_, last rfl, quiet, silent, cmd, others, fun next isNext => ?_, fun _ => ?_⟩
    · rcases isNext with ⟨isPu, _⟩ | ⟨isPd, _⟩
      · exact nomatch isPu
      · exact nomatch isPd
    · rw [← Trim.bne_eq_decide]
      exact ⟨rfl, comparedLast_port ..⟩

end Sys2Proof.Machine

/-! SUPPORT. The FULL measurement: O51. Each comparison halves what is left of a leg's range, so six find its code. -/

namespace Sys2Proof.Machine

/-- What one comparison of a leg leaves as its result (R119): the trial code if the right code is not below it. -/
def narrowed (right bit result : TrimCode) : TrimCode :=
  if right.toNat < (result + bit).toNat then result else result + bit

/-- Six comparisons find the right code. -/
theorem narrowed_six (right : TrimCode) : narrowed right 1 (narrowed right 2 (narrowed right 4 (narrowed right 8
    (narrowed right 16 (narrowed right 32 0))))) = right := by
  revert right
  decide

/-- The answer of a comparator for which `right` holds the legs' right codes. -/
def answerFor (right trial : TrimCode) : Comparison := if right.toNat < trial.toNat then .below else .notBelow

theorem Engine.take_answerFor (leg : Leg) (bit result right : TrimCode) (codes : Trim) :
    (Engine.full leg bit result).take (answerFor right (result + bit)) codes =
      some (if bit >>> 1 ≠ 0 then
          .more (.full leg (bit >>> 1) (narrowed right bit result))
              (codes.put leg (narrowed right bit result + bit >>> 1))
        else match leg.next with
          | some l => .more (.full l 32 0) ((codes.put leg (narrowed right bit result)).put l 32)
          | none =>
            let found := codes.put leg (narrowed right bit result)
            .ended (if TrimCode.atEnd found.pu || TrimCode.atEnd found.pd || TrimCode.atEnd found.tc then .rail
                else .done)
              found) := by
  by_cases below : right.toNat < (result + bit).toNat
  · simp only [answerFor, narrowed, if_pos below]
    rfl
  · simp only [answerFor, narrowed, if_neg below]
    rfl

theorem Trim.put_put (t : Trim) (leg : Leg) (c d : TrimCode) : (t.put leg c).put leg d = t.put leg d := by
  cases leg <;> rfl

theorem Trim.get_put (t : Trim) (leg : Leg) (c : TrimCode) : (t.put leg c).get leg = c := by cases leg <;> rfl

/-! ### A measurement on its way -/

theorem comparedMore_comparedMore (r : Request) (start : Trim) (e e' : Engine) (c c' : Trim) (s : State) :
    comparedMore r start e' c' (comparedMore r start e c s) = comparedMore r start e' c' s := by
  refine State.ext_ports rfl rfl rfl rfl (fun p => ?_) rfl
  by_cases mine : p = r.port
  · subst mine
    rw [comparedMore_port, comparedMore_port, comparedMore_port]
    rfl
  · rw [(comparedMore_rest ..).2.2.2 p mine, (comparedMore_rest ..).2.2.2 p mine, (comparedMore_rest ..).2.2.2 p mine]

theorem comparedLast_comparedMore (r : Request) (start : Trim) (e : Engine) (o : WindowOutcome) (c c' : Trim)
    (s : State) : comparedLast r start o c' (comparedMore r start e c s) = comparedLast r start o c' s := by
  refine State.ext_ports rfl rfl rfl rfl (fun p => ?_) rfl
  by_cases mine : p = r.port
  · subst mine
    rw [comparedLast_port, comparedMore_port, comparedLast_port]
    rfl
  · rw [(comparedLast_rest ..).2.2.2 p mine, (comparedMore_rest ..).2.2.2 p mine, (comparedLast_rest ..).2.2.2 p mine]

/-- `t` is `s` further on in the measurement of `r`: it is to compare `leg` with the codes `codes`, and any comparison
leaves it as it would leave `s`. -/
structure Measures (r : Request) (start : Trim) (s t : State) (leg : Leg) (bit result : TrimCode) (codes : Trim) :
    Prop where
  running : t.power = .running
  holder : t.trim.holder = some ⟨r, .measuring start (.full leg bit result)⟩
  codes : t.codes r.port = codes
  more : ∀ e c, comparedMore r start e c t = comparedMore r start e c s
  last : ∀ o c, comparedLast r start o c t = comparedLast r start o c s

theorem Measures.self {r : Request} {start : Trim} {s : State} {leg : Leg} {bit result : TrimCode}
    (running : s.power = .running) (holder : s.trim.holder = some ⟨r, .measuring start (.full leg bit result)⟩) :
    Measures r start s s leg bit result (s.codes r.port) := ⟨running, holder, rfl, fun _ _ => rfl, fun _ _ => rfl⟩

theorem Measures.comparedMore {r : Request} {start : Trim} {s : State} (running : s.power = .running) (leg : Leg)
    (bit result : TrimCode) (codes : Trim) :
    Measures r start s (comparedMore r start (.full leg bit result) codes s) leg bit result codes where
  running := running
  holder := rfl
  codes := congrArg (fun q => q.line.trim) (comparedMore_port ..)
  more _ _ := comparedMore_comparedMore ..
  last _ _ := comparedLast_comparedMore ..

section
variable {r : Request} {start right : Trim} {s t : State} {leg : Leg} {bit result : TrimCode} {codes : Trim} {n : Nat}

theorem measureFull_compares (m : Measures r start s t leg bit result codes) {u : State}
    (run : exec (.comparisonDecided (answerFor (right.get leg) (codes.get leg))) t = .next u) :
    measureFull right (n + 1) t = measureFull right n u := by
  rw [← m.codes, answerFor] at run
  simp only [measureFull, m.holder, run]

/-- One comparison of a leg that has more to come. -/
theorem measureFull_bit (running : s.power = .running)
    (m : Measures r start s t leg bit result (codes.put leg (result + bit)))
    (more : bit >>> 1 ≠ 0) :
    ∃ u, measureFull right (n + 1) t = measureFull right n u ∧ Measures r start s u leg (bit >>> 1)
      (narrowed (right.get leg) bit result) (codes.put leg (narrowed (right.get leg) bit result + bit >>> 1)) := by
  have takes := Engine.take_answerFor leg bit result (right.get leg) (codes.put leg (result + bit))
  rw [if_pos more, Trim.put_put] at takes
  have run := exec_comparisonDecided m.running (answerFor (right.get leg) (result + bit))
  rw [takeComparison_more m.holder (m.codes ▸ takes), m.more] at run
  refine ⟨_, measureFull_compares m ?_, .comparedMore running ..⟩
  rw [Trim.get_put]
  exact run

/-- The first five comparisons of a leg. -/
theorem measureFull_fiveBits (running : s.power = .running) (m : Measures r start s t leg 32 0 (codes.put leg 32)) :
    ∃ u result, measureFull right (n + 5) t = measureFull right n u ∧
      Measures r start s u leg 1 result (codes.put leg (result + 1)) ∧
          narrowed (right.get leg) 1 result = right.get leg := by
  obtain ⟨t₁, run₁, m₁⟩ := measureFull_bit (right := right) (n := n + 4) running m (by decide)
  obtain ⟨t₂, run₂, m₂⟩ := measureFull_bit (right := right) (n := n + 3) running m₁ (by decide)
  obtain ⟨t₃, run₃, m₃⟩ := measureFull_bit (right := right) (n := n + 2) running m₂ (by decide)
  obtain ⟨t₄, run₄, m₄⟩ := measureFull_bit (right := right) (n := n + 1) running m₃ (by decide)
  obtain ⟨t₅, run₅, m₅⟩ := measureFull_bit (right := right) (n := n) running m₄ (by decide)
  exact ⟨t₅, _, by rw [run₁, run₂, run₃, run₄, run₅], m₅, narrowed_six _⟩

/-- The six comparisons of a leg that is not the last. -/
theorem measureFull_leg (running : s.power = .running)
    (m : Measures r start s t leg 32 0 (codes.put leg 32)) {next : Leg}
    (isNext : leg.next = some next) :
    ∃ u, measureFull right (n + 6) t = measureFull right n u ∧
      Measures r start s u next 32 0 ((codes.put leg (right.get leg)).put next 32) := by
  obtain ⟨u, result, run, six, found⟩ := measureFull_fiveBits (right := right) (n := n + 1) running m
  have takes := Engine.take_answerFor leg 1 result (right.get leg) (codes.put leg (result + 1))
  rw [if_neg (by decide), isNext, found, Trim.put_put] at takes
  have compares := exec_comparisonDecided six.running (answerFor (right.get leg) (result + 1))
  rw [takeComparison_more six.holder (six.codes ▸ takes), six.more] at compares
  refine ⟨_, run.trans (measureFull_compares six ?_), .comparedMore running ..⟩
  rw [Trim.get_put]
  exact compares

/-- The six comparisons of the last leg. -/
theorem measureFull_lastLeg (running : s.power = .running) (m : Measures r start s t .tc 32 0 (codes.put .tc 32)) :
    let found := codes.put .tc right.tc
    measureFull right (n + 6) t = measureFull right n (comparedLast r start
      (if TrimCode.atEnd found.pu || TrimCode.atEnd found.pd || TrimCode.atEnd found.tc then .rail else .done)
      found s) := by
  obtain ⟨u, result, run, six, found⟩ := measureFull_fiveBits (right := right) (n := n + 1) running m
  have takes := Engine.take_answerFor .tc 1 result right.tc (codes.put .tc (result + 1))
  rw [if_neg (by decide), show narrowed right.tc 1 result = right.tc from found, Trim.put_put] at takes
  have compares := exec_comparisonDecided six.running (answerFor right.tc (result + 1))
  rw [takeComparison_last six.holder (six.codes ▸ takes), six.last] at compares
  refine run.trans (measureFull_compares six ?_)
  rw [Trim.get_put]
  exact compares

/-- A FULL measurement from its start: eighteen comparisons, of which the last ends it with the right codes. -/
theorem measureFull_whole (running : s.power = .running)
    (holder : s.trim.holder = some ⟨r, .measuring start (.full .pu 32 0)⟩)
    (first : s.codes r.port = start.put .pu 32) :
    measureFull right 18 s = .next (comparedLast r start
      (if TrimCode.atEnd right.pu || TrimCode.atEnd right.pd || TrimCode.atEnd right.tc then .rail else .done)
      right s) := by
  have m := Measures.self running holder
  rw [first] at m
  obtain ⟨t₁, run₁, m₁⟩ := measureFull_leg (right := right) (n := 12) running m rfl
  obtain ⟨t₂, run₂, m₂⟩ := measureFull_leg (right := right) (n := 6) running m₁ rfl
  exact run₁.trans (run₂.trans (measureFull_lastLeg (right := right) (n := 0) running m₂))

end

theorem atEnd_iff (right : Trim) :
    (TrimCode.atEnd right.pu || TrimCode.atEnd right.pd || TrimCode.atEnd right.tc) = true ↔
      right.pu = 0 ∨ right.pu = 63 ∨ right.pd = 0 ∨ right.pd = 63 ∨ right.tc = 0 ∨ right.tc = 63 := by
  simp only [TrimCode.atEnd, Bool.or_eq_true, beq_iff_eq, or_assoc]

/-- Settles O51, leg by leg: six comparisons each, and the codes found are the right ones. -/
theorem fullMeasurementFindsTheRightCodes : Obligations.FullMeasurementFindsTheRightCodes := by
  intro s r start right running holder first o changed
  have run := measureFull_whole (right := right) running holder first
  simp only [atEnd_iff] at run
  obtain ⟨quiet, silent, cmd, others⟩ := comparedLast_rest r start o right s
  refine ⟨_, run, quiet, silent, cmd, others, ?_⟩
  rw [show changed = (right != start) from (Trim.bne_eq_decide ..).symm]
  exact ⟨rfl, comparedLast_port ..⟩

end Sys2Proof.Machine

/-! SUPPORT. CALIBRATE and the reference queue: O21. -/

namespace Sys2Proof.Machine

section
variable {s : State} {r w : Request}

theorem takeRequest_busy {h : Holder} (holder : s.trim.holder = some h) (mine : h.request.port = r.port) :
    takeRequest r s = (.calBusy, s) := by
  simp [takeRequest, TrimUnit.holderOf, holder, mine]

theorem takeRequest_queued (notHeld : ∀ h, s.trim.holder = some h → h.request.port ≠ r.port)
    (queued : s.trim.queuedOf r.port = some w) : takeRequest r s =
      if w.kind = .quick ∧ r.kind = .full then
        (.upgraded, sendPort r.port (.upgraded w.number) (s.setTrim { s.trim with
          queue := s.trim.queue.map fun e => if e.port = r.port then e.upgrade r.origin else e }))
      else (.merged, s) := by
  have held : s.trim.holderOf r.port = none := TrimUnit.holderOf_eq_none.2 notHeld
  simp only [takeRequest, held, queued, Option.isSome_none, Bool.false_eq_true, if_false]

end

/-- The port that has handed over a new request (R112). -/
def Port.claimed (q : Port) (k : CalKind) : Port :=
  { q with claimNumber := q.claimNumber + 1, claim := .queued, claimKind := some k }

theorem Port.claimNew_of_none {q : Port} (k : CalKind) (free : q.claim = .none) : q.claimNew k = q.claimed k :=
    if_pos free

/-- The request of CALIBRATE. -/
def calRequest (p : PortId) (k : CalKind) (s : State) : Request := ⟨p, k, .host, 1, (s.port p).requestNumber⟩

theorem drainPort_nil {p : PortId} {s : State} (nothing : (s.port p).toTrim = []) : drainPort p s = s := by
  rw [drainPort, nothing]
  rfl

section
variable {s : State} {f : HostFrame} {p : PortId} {k : CalKind}

theorem exec_calibrate (takes : s.Takes f) (kind : f.kind = 0x0B) (body : f.body = [portByte p, k.code]) :
    exec .calibrate s = .next (calibrate f p k s.popFrame) := by
  refine congrArg Host.Outcome.next (takeCommand_ok takes kind (parse := parseCalibrate) (a := (p, k)) ?_ _)
  have read : calKindOf k.code = some k := by cases k <;> rfl
  rw [body]
  simp only [parseCalibrate, parsePort_portByte, parsed_ok_bind, read, value_some_bind]

theorem calibrate_notReceiving (off : (s.port p).state.receives = false) :
    calibrate f p k s = respond f .portState [] s := by simp [calibrate, off]

theorem calibrate_window (receives : (s.port p).state.receives = true) (window : (s.port p).claim = .window) :
    calibrate f p k s = respond f .calBusy [] s := by simp [calibrate, receives, window]

variable (receives : (s.port p).state.receives = true) (noWindow : (s.port p).claim ≠ .window)
  (nothing : (s.port p).toTrim = [])
include receives noWindow nothing

/-- The trim unit's answer is the response. -/
theorem calibrate_answers {a : Result} {t : State} (answer : takeRequest (calRequest p k s) s = (a, t)) :
    calibrate f p k s = (takeRequest (calRequest p k s)
      (if a = .ok then (respond f a [] s).modPort p fun q => q.claimNew k else respond f a [] s)).2 := by
  simp only [calRequest] at answer
  simp only [calibrate, receives, noWindow, drainPort_nil nothing, answer, calRequest, Bool.not_true,
    Bool.false_eq_true, if_false]

/-- An answer that leaves the hub as it is. -/
theorem calibrate_refuses {a : Result} (answer : ∀ t, t.trim = s.trim → takeRequest (calRequest p k s) t = (a, t))
    (notOk : a ≠ .ok) : calibrate f p k s = respond f a [] s := by
  rw [calibrate_answers receives noWindow nothing (answer s rfl), if_neg notOk,
    answer (respond f a [] s) rfl]

/-- A queued QUICK request takes up the FULL one. -/
theorem calibrate_upgrades {w : Request} (notHeld : ∀ h, s.trim.holder = some h → h.request.port ≠ p)
    (queued : s.trim.queuedOf p = some w) (quick : w.kind = .quick) (full : k = .full) :
    calibrate f p k s = sendPort p (.upgraded w.number) ((respond f .upgraded [] s).setTrim { s.trim with
      queue := s.trim.queue.map fun e => if e.port = p then { e with kind := .full, origin := .host } else e }) := by
  have upgrade (t : State) (same : t.trim = s.trim) := takeRequest_queued (s := t) (r := calRequest p k s) (w := w)
    (by rw [same]; exact notHeld) (by rw [same]; exact queued)
  rw [calibrate_answers receives noWindow nothing ((upgrade s rfl).trans (if_pos ⟨quick, full⟩)),
    if_neg (by decide), upgrade (respond f .upgraded [] s) rfl, if_pos ⟨quick, full⟩]
  simp only [Request.upgrade, calRequest, or_true, if_true]
  rfl

/-- A request that no other of the port's stands before enters at the tail. -/
theorem calibrate_enters (notHeld : ∀ h, s.trim.holder = some h → h.request.port ≠ p)
    (notQueued : ∀ r ∈ s.trim.queue, r.port ≠ p) (free : (s.port p).claim = .none) :
    calibrate f p k s = enterTail ⟨p, k, .host, 1, (s.port p).claimNumber + 1⟩
      ((respond f .ok [] s).modPort p fun q => q.claimed k) := by
  have enters (t : State) (same : t.trim = s.trim) := takeRequest_fresh (s := t) (r := calRequest p k s)
    (by rw [same]; exact notHeld) (by rw [same]; exact notQueued)
  have claims : (respond f .ok [] s).modPort p (fun q => q.claimNew k) =
      (respond f .ok [] s).modPort p fun q => q.claimed k := by
    simp only [State.modPort, respond_port, Port.claimNew_of_none k free]
  have request : calRequest p k s = ⟨p, k, .host, 1, (s.port p).claimNumber + 1⟩ := by
    simp only [calRequest, Port.requestNumber, free, if_true]
  rw [calibrate_answers receives noWindow nothing (enters s rfl), if_pos rfl, claims,
    enters ((respond f .ok [] s).modPort p _) rfl, request]

end

/-- Settles O21: the checks of R116, and the trim unit's answers. -/
theorem calibrateMeetsTheReferenceQueue : Obligations.CalibrateMeetsTheReferenceQueue := by
  intro s f p k takes kind body
  have run := exec_calibrate takes kind body
  refine ⟨fun off => ?off, fun receives window => ?window, fun receives noWindow nothing =>
    ⟨fun ⟨h, holder, mine⟩ => ?held, fun notHeld =>
      ⟨fun w queued => ⟨fun covered => ?merged, fun quick full => ?upgraded⟩,
        fun notQueued free => ⟨fun held => ?tail, fun freeRef empty => ?granted⟩⟩⟩⟩
  case off =>
    rw [calibrate_notReceiving (s := s.popFrame) off] at run
    exact ⟨_, run, respond_spec ..⟩
  case window =>
    rw [calibrate_window (s := s.popFrame) receives window] at run
    exact ⟨_, run, respond_spec ..⟩
  case held =>
    have answer (t : State) (same : t.trim = s.popFrame.trim) :
        takeRequest (calRequest p k s.popFrame) t = (.calBusy, t) :=
      takeRequest_busy (h := h) (by rw [same]; exact holder) mine
    rw [calibrate_refuses (s := s.popFrame) receives noWindow nothing answer (by decide)] at run
    exact ⟨_, run, respond_spec ..⟩
  case merged =>
    have answer (t : State) (same : t.trim = s.popFrame.trim) :
        takeRequest (calRequest p k s.popFrame) t = (.merged, t) := by
      refine (takeRequest_queued (s := t) (w := w) (by rw [same]; exact notHeld)
        (by rw [same]; exact queued)).trans (if_neg ?_)
      rintro ⟨quick, full : k = .full⟩
      rcases covered with isFull | isQuick
      · cases isFull.symm.trans quick
      · cases full.symm.trans isQuick
    rw [calibrate_refuses (s := s.popFrame) receives noWindow nothing answer (by decide)] at run
    exact ⟨_, run, respond_spec ..⟩
  case upgraded =>
    rw [calibrate_upgrades (s := s.popFrame) receives noWindow nothing notHeld queued quick full] at run
    obtain ⟨answered, reported, -, -, others⟩ := respond_spec f .upgraded [] s
    refine ⟨_, run, answered, reported, rfl, rfl, fun p' other => sendPort_port_other _ _ other, sendPort_port ..⟩
  case tail =>
    have spec := respond_modPort_spec s f p fun q => q.claimed k
    obtain ⟨m, isM⟩ : ∃ m, m = (respond f .ok [] s.popFrame).modPort p fun q => q.claimed k := ⟨_, rfl⟩
    rw [← isM] at spec
    obtain ⟨answered, reported, ⟨tags, trim, others⟩, port⟩ := spec
    rw [calibrate_enters (s := s.popFrame) receives noWindow nothing notHeld notQueued free, ← isM,
      enterTail_held _ (by rw [trim]; exact held), trim] at run
    exact ⟨_, run, answered, reported, tags, rfl, others, port⟩
  case granted =>
    have spec := respond_modPort_spec s f p fun q => q.claimed k
    obtain ⟨m, isM⟩ : ∃ m, m = (respond f .ok [] s.popFrame).modPort p fun q => q.claimed k := ⟨_, rfl⟩
    rw [← isM] at spec
    obtain ⟨answered, reported, ⟨tags, trim, others⟩, port⟩ := spec
    rw [calibrate_enters (s := s.popFrame) receives noWindow nothing notHeld notQueued free, ← isM,
      enterTail_free _ (by rw [trim]; exact freeRef) (by rw [trim]; exact empty), trim] at run
    refine ⟨_, run, answered, reported, tags, rfl, fun p' other => ?_, ?_⟩
    · exact (sendPort_port_other _ _ other).trans (others p' other)
    · rw [sendPort_port, State.setTrim_port, port]
      rfl

end Sys2Proof.Machine

/-! SUPPORT. What an operation of one port's engine does, as one record: the work on the port alone, its notices, the
tags that leave the live set, and the port it leaves. The flush family is settled with it: O17, O18 and O40. -/

namespace Sys2Proof.Machine

/-! ### The record and its laws -/

/-- The engine of port `p` took the hub from `s` to `t`: nothing else of the hub moved, the notices `ns` were posted,
the transactions of `tags` are no longer live, and the port stands as `q`. -/
structure Acts (p : PortId) (s t : State) (q : Port) (ns : List Notice) (tags : List Word16) : Prop where
  work : PortWork p s t
  posts : ns = [] ∨ s.RoomFor ns.length → Posts s t ns
  live : t.cmd.live = s.cmd.live.filter fun e => !(tags.contains e.tag)
  port : t.port p = q.refresh

theorem filter_noTags (live : List LiveTag) : live.filter (fun e => !(([] : List Word16).contains e.tag)) = live := by
  simp

theorem filter_twoTags (live : List LiveTag) (xs ys : List Word16) :
    (live.filter fun e => !(xs.contains e.tag)).filter (fun e => !(ys.contains e.tag)) =
      live.filter fun e => !((xs ++ ys).contains e.tag) := by
  rw [List.filter_filter]
  refine List.filter_congr fun e _ => ?_
  rw [Bool.eq_iff_iff]
  simp [and_comm]

theorem filter_oneTag (live : List LiveTag) (tag : Word16) :
    live.filter (fun e => !([tag].contains e.tag)) = live.filter fun e => e.tag != tag := by
  refine List.filter_congr fun e _ => ?_
  by_cases same : e.tag = tag <;> simp [same]

section
variable {p : PortId} {s t u : State} {q q' : Port} {ns ms : List Notice} {xs ys : List Word16}

theorem Acts.refl (stands : s.port p = q.refresh) : Acts p s s q [] [] :=
  ⟨.refl p s, fun _ => .refl s, (filter_noTags _).symm, stands⟩

theorem Acts.trans (h : Acts p s t q ns xs) (k : Acts p t u q' ms ys) : Acts p s u q' (ns ++ ms) (xs ++ ys) where
  work := h.work.trans k.work
  posts fits := by
    rcases fits with none | room
    · obtain ⟨none, none'⟩ := List.append_eq_nil_iff.1 none
      exact (h.posts (.inl none)).trans (k.posts (.inl none'))
    · rw [List.length_append] at room
      have first := h.posts (.inr (by simp only [State.RoomFor] at room ⊢; omega))
      exact first.trans (k.posts (.inr (first.room room)))
  live := by rw [k.live, h.live, filter_twoTags]
  port := k.port

/-- An operation after one that posted nothing and ended nothing. -/
theorem Acts.after (h : Acts p s t q [] []) (k : Acts p t u q' ns xs) : Acts p s u q' ns xs := by
  simpa using h.trans k

/-- One after another that posts nothing and ends nothing. -/
theorem Acts.andThen (h : Acts p s t q ns xs) (k : Acts p t u q' [] []) : Acts p s u q' ns xs := by
  simpa using h.trans k

theorem Acts.to (h : Acts p s t q ns xs) (same : q.refresh = q'.refresh) : Acts p s t q' ns xs :=
  ⟨h.work, h.posts, h.live, h.port.trans same⟩

theorem Acts.modPort {f : Port → Port} (same : (f (s.port p)).refresh = q.refresh) : Acts p s (s.modPort p f) q [] [] :=
  ⟨modPort_work p f s, fun _ => .of_link_eq rfl, (filter_noTags _).symm, (State.modPort_port_same ..).trans same⟩

theorem Acts.cmd (h : Acts p s t q ns []) : t.cmd = s.cmd := by
  have live := h.live.trans (filter_noTags _)
  have draining := h.work.draining
  rcases cmd : t.cmd with ⟨a, b⟩
  rcases cmd' : s.cmd with ⟨a', b'⟩
  rw [cmd, cmd'] at live draining
  cases live
  cases draining
  rfl

theorem Acts.reported (h : Acts p s t q ns xs) (room : s.RoomFor ns.length) : Reported s t ns :=
  (h.posts (.inr room)).reported

theorem Acts.room (h : Acts p s t q [] xs) {n : Nat} (room : s.RoomFor n) : t.RoomFor n :=
  (h.posts (.inl rfl)).room (by simpa using room)

theorem Acts.onlyPort (h : Acts p s t q ns []) : OnlyPort s t p := ⟨h.cmd, h.work.trim, h.work.others⟩

theorem Acts.quiet (h : Acts p s t q [] []) : Quiet s t p :=
    ⟨h.work.unanswered, (h.posts (.inl rfl)).reported, h.onlyPort⟩

theorem Acts.notice (stands : s.port p = q.refresh) (n : Notice) : Acts p s (postNotice n s) q [n] [] :=
  ⟨postNotice_work p n s, fun fits => postNotice_posts n s (fits.resolve_left nofun), (filter_noTags _).symm, stands⟩

theorem Acts.tag (stands : s.port p = q.refresh) (tag : Word16) : Acts p s (dropTag tag s) q [] [tag] :=
  ⟨dropTag_work p tag s, fun _ => .of_link_eq rfl, (filter_oneTag _ tag).symm, stands⟩

end

/-! ### A move with the flush of everything in work -/

/-- The port that a move to `st` and a flush leave (R20, R23). -/
def Port.flushedInto (q : Port) (st : PortState) : Port :=
  { q.withoutWork with
    state := st, timer := q.timer.inState st, queue := [], lateReply := none, sweep := none }

theorem Port.withoutWork_refresh_with (q : Port) (st : PortState) (timer : QuickTimer) :
    Port.refresh { ({ q with state := st, timer := timer } : Port).refresh.withoutWork with
      queue := [], lateReply := none, sweep := none } =
    Port.refresh { q.withoutWork with
      state := st, timer := timer, queue := [], lateReply := none, sweep := none } := by
  by_cases idle : q.inFlight = none
  · have idle' : ({ q with state := st, timer := timer } : Port).refresh.inFlight = none := idle
    rw [Port.withoutWork, if_pos idle', Port.withoutWork, if_pos idle]
    rfl
  · have busy' : ¬ ({ q with state := st, timer := timer } : Port).refresh.inFlight = none := idle
    rw [Port.withoutWork, if_neg busy', Port.withoutWork, if_neg idle]
    rfl

theorem roomFor_cons {s : State} {n : Notice} {ns : List Notice} (room : s.RoomFor (n :: ns).length) :
    s.RoomFor (1 + ns.length) := by
  rwa [List.length_cons, Nat.add_comm] at room

/-- The PORT_STATE of the move, and then the flush. -/
theorem flushInto_acts {p : PortId} {s : State} {q : Port} (stands : s.port p = q ∨ s.port p = q.refresh)
    (st : PortState)
    (tc : TransCause) (c : FlushCause) :
    Acts p s (flush p c (moveTo p st tc s)) (q.flushedInto st)
      (.portState p st tc :: q.flushNotices p c.outcome c.sweepCause) q.tags := by
  have moved : (moveTo p st tc s).port p = Port.refresh { q with state := st, timer := q.timer.inState st } := by
    rcases stands with e | e
    · rw [moveTo_port, e]
    · rw [moveTo_port, e]
      rfl
  obtain ⟨posts, live, port⟩ := flush_spec p c (moveTo p st tc s)
  rw [moved] at posts live port
  refine ⟨(moveTo_work p st tc s).trans (flush_work p c _), fun fits => ?_, live, port.trans ?_⟩
  · have room : s.RoomFor (1 + (q.flushNotices p c.outcome c.sweepCause).length) :=
      roomFor_cons (fits.resolve_left nofun)
    have first : Posts s (moveTo p st tc s) [.portState p st tc] :=
      moveTo_posts p st tc (by simp only [State.RoomFor] at room ⊢; omega)
    exact first.trans (posts (first.room room))
  · exact Port.withoutWork_refresh_with ..

/-! ### The withdrawal and the line switched off or on -/

theorem Port.withoutWork_eq (q : Port) : q.withoutWork = { q with
    inFlight := none, line := if q.inFlight = none then q.line else q.line.ended } := by
  by_cases idle : q.inFlight = none
  · rw [Port.withoutWork, if_pos idle, if_pos idle]
    exact congrArg (fun work => { q with inFlight := work }) idle
  · rw [Port.withoutWork, if_neg idle, if_neg idle]
    rfl

theorem Port.withdraw_eq (q : Port) : q.withdraw = { q with
    claim := .none
    claimKind := if q.claim = .none then q.claimKind else none
    toTrim := q.toTrim ++ q.withdrawals
    line := if q.claim = .none then q.line
      else { q.line with
        spoilWatch := none, driver := if q.line.driver = .disconnected then .released else q.line.driver } } := by
  by_cases free : q.claim = .none
  · rw [Port.withdraw, Port.withdrawals]
    simp only [free, if_true, List.append_nil]
    exact congrArg (fun claim => { q with claim := claim }) free
  · rw [Port.withdraw, Port.withdrawals, if_neg free, if_neg free, if_neg free]
    rcases claim : q.claim with _ | _ | _ | _
    · exact absurd claim free
    all_goals rfl

theorem Port.withdraw_switchOff (q : Port) (driver : Driver) :
    { q.withdraw with line := q.withdraw.line.switchOff driver } = { q with
      claim := .none
      claimKind := if q.claim = .none then q.claimKind else none
      toTrim := q.toTrim ++ q.withdrawals
      line := q.line.switchOff driver } := by
  have sameLine : q.withdraw.line.switchOff driver = q.line.switchOff driver := by
    unfold Port.withdraw
    split <;> rfl
  rw [sameLine, Port.withdraw_eq]

/-- The port off the line: its work flushed, its claim withdrawn, its receiver off. -/
def Port.offLine (q : Port) (st : PortState) (driver : Driver) : Port :=
  { q with
    state := st, timer := q.timer.inState st, inFlight := none, queue := [], sweep := none, lateReply := none
    claim := .none
    claimKind := if q.claim = .none then q.claimKind else none
    toTrim := q.toTrim ++ q.withdrawals
    line := q.line.switchOff driver }

theorem Port.flushedInto_off (q : Port) (st : PortState) (driver : Driver) :
    Port.refresh { (q.flushedInto st).refresh.withdraw with
      line := (q.flushedInto st).refresh.withdraw.line.switchOff driver } = (q.offLine st driver).refresh := by
  rw [Port.withdraw_switchOff, Port.flushedInto, Port.withoutWork_eq]
  by_cases idle : q.inFlight = none
  · rw [if_pos idle]
    rfl
  · rw [if_neg idle]
    rfl

/-- A port leaves the line: PORT_STATE, the flush's notices, and the claim withdrawn. -/
theorem leaveLine_acts {p : PortId} {s : State} {q : Port} (stands : s.port p = q ∨ s.port p = q.refresh)
    (st : PortState)
    (tc : TransCause) (c : FlushCause) (driver : Driver) :
    Acts p s ((flush p c (moveTo p st tc s)).modPort p fun q =>
        { q.withdraw with line := q.withdraw.line.switchOff driver })
      (q.offLine st driver) (.portState p st tc :: q.flushNotices p c.outcome c.sweepCause) q.tags := by
  have flushed := flushInto_acts stands st tc c
  refine flushed.andThen (.modPort ?_)
  rw [flushed.port]
  exact q.flushedInto_off st driver

/-! ### Disable and reset -/

/-- What a command answers with, that then has its port's engine act. -/
theorem Acts.answered {p : PortId} {s t : State} {f : HostFrame} {r : Result} {d : List Byte} {q : Port}
    {ns : List Notice} {xs : List Word16} (h : Acts p (respond f r d s.popFrame) t q ns xs)
        (room : s.RoomFor ns.length) :
    Answered s t f r d ∧ Reported s t ns ∧ t.trim = s.trim ∧ t.cmd.draining = s.cmd.draining ∧
    t.cmd.live = (s.cmd.live.filter fun e => !(xs.contains e.tag)) ∧ (∀ p', p' ≠ p → t.port p' = s.port p') ∧
    t.port p = q.refresh := by
  obtain ⟨answered, trim, draining, others⟩ := answered_of_portWork h.work
  exact ⟨answered, reported_of_respond (h.reported (respond_room room)), trim, draining, h.live, others, h.port⟩

/-- Settles O17: the flush, the withdrawal and the receiver switched off. -/
theorem portDisableFlushesAndSwitchesOff : Obligations.PortDisableFlushesAndSwitchesOff := by
  intro s f p takes kind body
  have run : exec .portDisable s = .next (if (s.port p).state = .off then respond f .ok [] s.popFrame
      else disablePort p (respond f .ok [] s.popFrame)) :=
    congrArg Host.Outcome.next (takeCommand_ok takes kind (by rw [body]; exact parsePortOnly_body p) _)
  refine ⟨fun on room => ?_, fun off => ?_⟩
  · rw [if_neg on] at run
    have acts := leaveLine_acts (s := respond f .ok [] s.popFrame) (q := s.port p)
        (.inl rfl) .off .disabled .disabled .released
    rw [Nat.add_comm] at room
    exact ⟨_, run, acts.answered room⟩
  · rw [if_pos off] at run
    exact ⟨_, run, respond_spec f .ok [] s⟩

/-- The port after a reset (R25). -/
def Port.resetTo (q : Port) (p : PortId) : Port :=
  { q with
    state := .trimming .full, timer := .stopped, inFlight := none, queue := [], sweep := none, lateReply := none
    collisionRun := 0
    claim := .queued
    claimNumber := q.claimNumber + 1
    claimKind := some .full
    toTrim := q.toTrim ++ q.withdrawals ++ [.request ⟨p, .full, .auto, 1, q.claimNumber + 1⟩]
    line := if q.state.receives = true then q.flushedLine else q.flushedLine.switchOn }

/-- The flush and the withdrawal leave the line that the statement names. -/
theorem Port.flushedInto_withdraw_line (q : Port) (st : PortState) (sel : Selection) (stuck : StuckTimer) :
    ({ q.flushedInto st with
        selected := sel, line := { (q.flushedInto st).line with stuck := stuck } } : Port).withdraw.line =
      { q.flushedLine with stuck := stuck } := by
  simp only [Port.withdraw_eq, Port.flushedInto, Port.withoutWork_eq, Port.flushedLine]
  by_cases idle : q.inFlight = none
  · by_cases free : q.claim = .none
    · simp only [if_pos idle, if_pos free]
    · simp only [if_pos idle, if_neg free]
  · by_cases free : q.claim = .none
    · simp only [if_neg idle, if_pos free]
    · simp only [if_neg idle, if_neg free]

theorem Port.flushedInto_handOver (q : Port) (p : PortId) :
    let u := (q.flushedInto (.trimming .full)).refresh
    Port.refresh (Port.handOver p .full .auto { u.withdraw with
      collisionRun := 0, line := if q.state.receives = true then u.withdraw.line else u.withdraw.line.switchOn }) =
    (q.resetTo p).refresh := by
  intro u
  have line : u.withdraw.line = { q.flushedLine with stuck := u.line.stuck } :=
    q.flushedInto_withdraw_line (.trimming .full) u.selected u.line.stuck
  rw [line, Port.withdraw_eq, Port.resetTo]
  simp only [u, Port.flushedInto, Port.withoutWork_eq]
  by_cases on : q.state.receives = true
  · rw [if_pos on, if_pos on]
    rfl
  · rw [if_neg on, if_neg on]
    rfl

theorem resetPort_acts {p : PortId} {s : State} {q : Port} (stands : s.port p = q) :
    Acts p s (resetPort p s) (q.resetTo p)
      (.portState p (.trimming .full) .reset :: q.flushNotices p .portReset .portReset) q.tags := by
  have flushed := flushInto_acts (s := s) (.inl stands) (.trimming .full) .reset .reset
  unfold resetPort
  refine flushed.andThen (Acts.modPort ?_)
  rw [flushed.port, stands]
  exact q.flushedInto_handOver p

/-- Settles O18: the flush, the withdrawal and the new request. -/
theorem portResetRestartsTrimming : Obligations.PortResetRestartsTrimming := by
  intro s f p takes kind body
  have run : exec .portReset s = .next (if (s.port p).state = .off then respond f .portState [] s.popFrame
      else resetPort p (respond f .ok [] s.popFrame)) :=
    congrArg Host.Outcome.next (takeCommand_ok takes kind (by rw [body]; exact parsePortOnly_body p) _)
  refine ⟨fun on room => ?_, fun off => ?_⟩
  · rw [if_neg on] at run
    have acts := resetPort_acts (s := respond f .ok [] s.popFrame) (q := s.port p) rfl
    rw [Nat.add_comm] at room
    exact ⟨_, run, acts.answered room⟩
  · rw [if_pos off] at run
    exact ⟨_, run, respond_spec f .portState [] s⟩

/-! ### Faults -/

theorem enterFault_acts {p : PortId} {s : State} {q : Port} (stands : s.port p = q ∨ s.port p = q.refresh)
    (cause : FaultCause) (tc : TransCause) :
    Acts p s (enterFault p cause tc s) (q.faultedWith cause)
      (.portState p (.faulted cause) tc :: q.flushNotices p .portFaulted .portFaulted) q.tags :=
  leaveLine_acts stands (.faulted cause) tc .faulted .disabled

theorem Acts.faultsInto {p : PortId} {s t : State} {q after : Port} {cause : FaultCause} {tc : TransCause}
    (h : Acts p s t after (.portState p (.faulted cause) tc :: q.flushNotices p .portFaulted .portFaulted) q.tags)
    (room : s.RoomFor (1 + (q.flushNotices p .portFaulted .portFaulted).length)) :
    FaultsInto s t p q cause tc after := by
  rw [Nat.add_comm] at room
  exact ⟨h.work.unanswered, h.reported room, h.work.trim, h.work.draining, h.live, h.work.others, h.port⟩

theorem Port.stuckTimer_counting_iff (q : Port) : q.stuckTimer = .counting ↔
    q.line.receiver ≠ .off ∧ q.line.restCount ≠ 14 ∧ q.inExchange = false := by
  have idle : q.lineIdle = true ↔ q.line.restCount = 14 := beq_iff_eq
  unfold Port.stuckTimer
  by_cases off : q.line.receiver = .off
  · simp [off]
  · rcases exchange : q.inExchange <;> simp [off, idle]

theorem Port.inExchange_false_iff (q : Port) : q.inExchange = false ↔ ∀ f, q.inFlight = some f →
    f.phase ≠ .sending ∧ f.phase ≠ .turnaround ∧ f.phase ≠ .awaiting ∧ f.phase ≠ .receiving := by
  unfold Port.inExchange Port.phase
  rcases q.inFlight with _ | ⟨phase, w⟩
  · simp
  · cases phase <;> simp

/-- Settles O40. -/
theorem stuckLineFaultsThePort : Obligations.StuckLineFaultsThePort := by
  refine ⟨fun q => ?_, fun s p ⟨running, on⟩ => ?_⟩
  · rw [q.stuckTimer_counting_iff, q.inExchange_false_iff]
  · have run : exec (.stuckLineExpiry p) s =
        .next (if (s.port p).line.stuck = .counting then enterFault p .stuck .stuck s else s) :=
      congrArg Host.Outcome.next ((whenRunning_running running _).trans (if_neg on))
    refine ⟨fun counts room => ?_, fun still => ?_⟩
    · rw [if_pos counts] at run
      exact ⟨_, run, (enterFault_acts (.inl rfl) .stuck .stuck).faultsInto room⟩
    · rw [run, if_neg still]

end Sys2Proof.Machine

/-! SUPPORT. What the port engine's operations on an exchange do, each as one `Acts`: completions, failed attempts,
probe results. -/

namespace Sys2Proof.Machine

section
variable {p : PortId} {s t u : State} {q : Port}

/-! ### The station table -/

theorem Port.modStation_absent {q : Port} {a : Addr} (f : Station → Station) (absent : q.station a = none) :
    q.modStation a f = q := by
  have none : ∀ e ∈ q.stations, e.addr ≠ a := by
    intro e mem same
    have := List.find?_eq_none.1 absent e mem
    simp [same] at this
  have same : (q.stations.map fun e => if e.addr = a then f e else e) = q.stations := by
    conv_rhs => rw [← List.map_id q.stations]
    exact List.map_congr_left fun e mem => if_neg (none e mem)
  exact congrArg (fun stations => { q with stations := stations }) same

/-- The STATION_STATE of an entry that `f` changes. -/
def Port.stationNotices (q : Port) (p : PortId) (a : Addr) (f : Station → Station) (cause : StationCause) :
    List Notice :=
  match q.station a with
  | none => []
  | some e => if (f e).state = e.state then [] else [.stationState p a (f e).state cause]

theorem updateStation_acts (stands : s.port p = q.refresh) (a : Addr) (f : Station → Station) (cause : StationCause) :
    Acts p s (updateStation p a f cause s) (q.modStation a f) (q.stationNotices p a f cause) [] := by
  have same : (s.port p).station a = q.station a := by rw [stands]; rfl
  have changed : Acts p s (s.modPort p fun q => q.modStation a f) (q.modStation a f) [] [] :=
    .modPort (by rw [stands]; rfl)
  unfold updateStation Port.stationNotices
  rw [same]
  rcases found : q.station a with _ | e
  · rw [Port.modStation_absent f found]
    exact .refl stands
  · by_cases still : (f e).state = e.state
    · simp only [if_pos still]
      exact changed
    · simp only [if_neg still]
      exact changed.after (.notice changed.port _)

/-! ### Completions -/

/-- The station table once it has taken a completion (R41, R42). -/
def Port.tableAfter (q : Port) (x : Txn) (o : TxnOutcome) : Port :=
  { q with stations := match x.station with
      | none => q.stations
      | some a => q.stations.map fun e => if e.addr = a then e.complete x.kind o else e }

theorem tableCompletion_acts (stands : s.port p = q.refresh) (x : Txn) (o : TxnOutcome) (used : Nat)
    (reply : Option (List Byte)) :
    Acts p s (tableCompletion p x o s) (q.tableAfter x o) (q.completionNotices p x o used reply).tail [] := by
  unfold tableCompletion Port.tableAfter Port.completionNotices
  rcases x.station with _ | a
  · exact .refl stands
  · exact updateStation_acts stands a _ _

/-- TXN_DONE, the tag, and the station table, in this order (R75). -/
theorem finish_acts (stands : s.port p = q.refresh) (x : Txn) (o : TxnOutcome) (used : Nat)
    (reply : Option (List Byte)) :
    Acts p s (finish p x o used reply s) (q.tableAfter x o) (q.completionNotices p x o used reply) [x.tag] := by
  have noticed := Acts.notice stands (.txnDone x.tag p o used reply)
  have dropped := Acts.tag noticed.port x.tag
  have taken := tableCompletion_acts dropped.port x o used reply
  exact (noticed.trans (dropped.trans taken) :)

theorem completeAndDecide_acts (stands : s.port p = q.refresh) (r : TxnRun) (o : TxnOutcome) :
    Acts p s (completeAndDecide p r o s) (Port.nextWork (q.afterCompletion r.txn o))
      (q.completionNotices p r.txn o r.used r.reply) [r.txn.tag] := by
  have ended : Acts p s (s.modPort p Port.endExchange) q.endExchange [] [] := .modPort (by rw [stands]; rfl)
  have finished := finish_acts ended.port r.txn o r.used r.reply
  have done := ended.after finished
  refine done.andThen (.modPort ?_)
  rw [done.port]
  exact Port.nextWork_congr rfl

theorem completionNotices_length (q : Port) (p : PortId) (x : Txn) (o : TxnOutcome) (used : Nat)
    (reply : Option (List Byte)) : (q.completionNotices p x o used reply).length ≤ 2 := by
  unfold Port.completionNotices
  split
  · simp
  · split
    · simp
    · split <;> simp

theorem roomFor_mono {m n : Nat} (le : m ≤ n) (room : s.RoomFor n) : s.RoomFor m := by
  simp only [State.RoomFor] at room ⊢
  omega

theorem Acts.completes {x : Txn} {o : TxnOutcome} {used : Nat} {reply : Option (List Byte)}
    (h : Acts p s t (Port.nextWork (q.afterCompletion x o)) (q.completionNotices p x o used reply) [x.tag])
    (room : s.RoomFor 2) : Completes s t p q x o used reply := by
  have live := h.live
  rw [filter_oneTag] at live
  exact ⟨h.work.unanswered, h.reported (roomFor_mono (completionNotices_length ..) room), h.work.trim,
    h.work.draining, live, h.work.others, h.port⟩

/-! ### Failed attempts -/

/-- An attempt that port `p`, which stood as `q`, had in flight failed: the transaction retries, or completes with its
last failure (R63). -/
def Fails (p : PortId) (s t : State) (q : Port) (r : TxnRun) (cause : FailCause) : Prop :=
  (r.used < r.limit → Acts p s t (Port.beginIfIdle { q.failureCounted with
      inFlight := some ⟨if cause = .collided then .recovering else .waitingIdle,
        .txn { r with lastFailure := some cause }⟩
      line := q.line.ended }) [] []) ∧
  (r.limit ≤ r.used → Acts p s t (Port.nextWork (q.failureCounted.afterCompletion r.txn cause.outcome))
    (q.failureCounted.completionNotices p r.txn cause.outcome r.used none) [r.txn.tag])

theorem Acts.fails {q' : Port} {r : TxnRun} {cause : FailCause} (h : Acts p s t q' [] []) (k : Fails p t u q r cause) :
    Fails p s u q r cause := ⟨fun more => h.after (k.1 more), fun last => h.after (k.2 last)⟩

theorem Fails.failsAttempt {r : TxnRun} {cause : FailCause} (h : Fails p s t q r cause) (room : s.RoomFor 2) :
    FailsAttempt s t p q r cause :=
  ⟨fun more => ⟨(h.1 more).quiet, (h.1 more).port⟩, fun last => (h.2 last).completes room⟩

theorem LineIf.ended_ended (l : LineIf) : l.ended.ended = l.ended := by
  unfold LineIf.ended
  by_cases drives : l.driver = .driving <;> simp [drives]

theorem Port.afterCompletion_ended (q : Port) (x : Txn) (o : TxnOutcome) :
    ({ q with line := q.line.ended } : Port).afterCompletion x o = q.afterCompletion x o := by
  simp only [Port.afterCompletion, LineIf.ended_ended]

theorem failAttempt_fails (stands : s.port p = q.refresh) (r : TxnRun) (cause : FailCause) :
    Fails p s (failAttempt p r cause s) q r cause := by
  have counted : Acts p s (s.modPort p fun q =>
      { q with counters := { q.counters with attemptsFailed := satInc q.counters.attemptsFailed }
               line := q.line.endExchange }) { q.failureCounted with line := q.line.ended } [] [] :=
    .modPort (by rw [stands]; rfl)
  unfold failAttempt
  refine ⟨fun more => ?_, fun last => ?_⟩
  · rw [if_pos more]
    refine counted.after (.modPort ?_)
    rw [counted.port]
    refine Port.beginIfIdle_congr ?_
    cases cause <;> rfl
  · rw [if_neg (Nat.not_lt.2 last)]
    refine (counted.after (completeAndDecide_acts counted.port _ cause.outcome)).to (Port.nextWork_congr ?_)
    rw [← Port.afterCompletion_ended q.failureCounted]
    rfl

/-! ### Probe results -/

/-- The result of a probe (R144). -/
def passEntry (pass : Bool) : PassEntry := if pass then .pass else .fail

/-- The probe that port `p`, which stood as `q` with the sweep `w`, had in flight ended (R145). -/
def Probes (p : PortId) (s t : State) (q : Port) (w : Sweep) (code : ThCode) (result : PassEntry) : Prop :=
  (w.next ≠ 31 → Acts p s t (Port.nextWork (q.probeOver (some (w.tried code result)))) [] []) ∧
  (w.next = 31 → Acts p s t (Port.nextWork { q.probeOver none with stations := (w.tried code result).write q.stations })
    [.sweepDone p w.station w.range (w.tried code result).result (w.tried code result).map] [])

theorem Acts.probes {q' : Port} {w : Sweep} {code : ThCode} {result : PassEntry} (h : Acts p s t q' [] [])
    (k : Probes p t u q w code result) : Probes p s u q w code result :=
  ⟨fun more => h.after (k.1 more), fun last => h.after (k.2 last)⟩

theorem Probes.probeEnds {w : Sweep} {code : ThCode} {result : PassEntry} (h : Probes p s t q w code result)
    (room : s.RoomToEnd w) : ProbeEnds s t p q w code result := by
  refine ⟨?_, ?_, fun more => ⟨((h.1 more).quiet).2.1, (h.1 more).port⟩,
    fun last => ⟨(h.2 last).reported (room last), (h.2 last).port⟩⟩
  · by_cases last : w.next = 31
    · exact (h.2 last).work.unanswered
    · exact (h.1 last).work.unanswered
  · by_cases last : w.next = 31
    · exact (h.2 last).onlyPort
    · exact (h.1 last).onlyPort

theorem endSweep_acts (stands : s.port p = q.refresh) (w : Sweep) (how : SweepEnd) :
    Acts p s (endSweep p w how s) { q with sweep := none } [.sweepDone p w.station w.range how w.map] [] := by
  have gone : Acts p s (s.modPort p fun q => { q with sweep := none }) { q with sweep := none } [] [] :=
    .modPort (by rw [stands]; rfl)
  exact gone.after (.notice gone.port _)

/-- The choice writes the table first, then reports (R148). -/
theorem chooseThreshold_acts (stands : s.port p = q.refresh) (w : Sweep) :
    Acts p s (chooseThreshold p w s) { q with sweep := none, stations := w.write q.stations }
      [.sweepDone p w.station w.range w.result w.map] [] := by
  unfold chooseThreshold Sweep.write Sweep.result
  by_cases wide : 3 ≤ (chooseRun w.map).width
  · have written : Acts p s (s.modPort p fun q => q.setSwept w.station
        ⟨w.range, BitVec.ofNat 5 (chooseRun w.map).middle⟩ (chooseRun w.map))
        (q.setSwept w.station ⟨w.range, BitVec.ofNat 5 (chooseRun w.map).middle⟩ (chooseRun w.map)) [] [] :=
      .modPort (by rw [stands]; rfl)
    rw [if_pos (show Config.minRun ≤ _ from wide), if_pos wide, if_pos wide]
    exact written.after (endSweep_acts written.port w _)
  · rw [if_neg (show ¬ Config.minRun ≤ _ from wide), if_neg wide, if_neg wide]
    exact endSweep_acts stands w _

theorem endProbe_probes (stands : s.port p = q.refresh) {w : Sweep} (sweep : q.sweep = some w) (r : ProbeRun)
    (pass : Bool) : Probes p s (endProbe p r pass s) q w r.code (passEntry pass) := by
  have recorded : Acts p s (s.modPort p fun q => q.recordProbe r pass)
      (q.probeOver (some (w.tried r.code (passEntry pass)))) [] [] := by
    refine .modPort ?_
    rw [stands, Port.recordProbe, Port.refresh_sweep, sweep]
    rfl
  obtain ⟨m, isM⟩ : ∃ m, m = s.modPort p fun q => q.recordProbe r pass := ⟨_, rfl⟩
  rw [← isM] at recorded
  have isSweep : (m.port p).sweep = some (w.tried r.code (passEntry pass)) := by rw [recorded.port]; rfl
  have settles : settleSweep p m =
      if w.next + 1 = 32 then chooseThreshold p (w.tried r.code (passEntry pass)) m else m := by
    simp only [settleSweep, isSweep]
    rfl
  unfold endProbe
  rw [← isM, settles]
  refine ⟨fun more => ?_, fun last => ?_⟩
  · rw [if_neg (by omega)]
    refine recorded.andThen (.modPort ?_)
    rw [recorded.port]
    exact Port.nextWork_congr rfl
  · rw [if_pos (by omega)]
    have chosen := recorded.after (chooseThreshold_acts recorded.port (w.tried r.code (passEntry pass)))
    refine chosen.andThen (.modPort ?_)
    rw [chosen.port]
    exact Port.nextWork_congr rfl

end

end Sys2Proof.Machine

/-! SUPPORT. The events of sending and of the timers: O30 to O32, O38 and O39. -/

namespace Sys2Proof.Machine

section
variable {p : PortId} {s t u : State} {q : Port}

theorem whenReceiving_hears (hears : s.Hears p) (f : State → State) : whenReceiving p s f = f s :=
  (whenRunning_running hears.1 _).trans (if_neg hears.2)

/-! ### The exchange in flight fails -/

theorem failExchange_txn {ph : Phase} {r : TxnRun} (stands : s.port p = q.refresh)
    (work : q.inFlight = some ⟨ph, .txn r⟩) (cause : FailCause) : Fails p s (failExchange p cause s) q r cause := by
  have same : (s.port p).inFlight = some ⟨ph, .txn r⟩ := by rw [stands]; exact work
  simp only [failExchange, same]
  exact failAttempt_fails stands r cause

theorem failExchange_probe {ph : Phase} {r : ProbeRun} {w : Sweep} (stands : s.port p = q.refresh)
    (work : q.inFlight = some ⟨ph, .probe r⟩) (sweep : q.sweep = some w) (cause : FailCause) :
    Probes p s (failExchange p cause s) q w r.code .fail := by
  have same : (s.port p).inFlight = some ⟨ph, .probe r⟩ := by rw [stands]; exact work
  simp only [failExchange, same]
  exact endProbe_probes stands sweep r false

/-! ### Sending -/

theorem Port.isSending_of {w : Work} (work : q.inFlight = some ⟨.sending, w⟩) (drives : q.line.driver = .driving) :
    q.isSending = true := by simp [Port.isSending, Port.phase, work, drives]

theorem exec_collision {w : Work} (hears : s.Hears p) (work : (s.port p).inFlight = some ⟨.sending, w⟩)
    (drives : (s.port p).line.driver = .driving) : exec (.collision p) s = .next (collide p s) :=
  congrArg Host.Outcome.next ((whenReceiving_hears hears _).trans (if_pos (Port.isSending_of work drives)))

theorem countCollision_acts (short : (s.port p).collisionRun < 8) :
    Acts p s (s.modPort p Port.countCollision) { s.port p with
      counters := { (s.port p).counters with collisions := satInc (s.port p).counters.collisions }
      collisionRun := (s.port p).collisionRun + 1
      line := { (s.port p).line with driver := .released, sending := [], receiver := .waitRest } } [] [] := by
  refine .modPort ?_
  rw [Port.countCollision, show min Config.collisionLimit ((s.port p).collisionRun + 1) =
      (s.port p).collisionRun + 1 from
    Nat.min_eq_right short]

/-- Settles O39. -/
theorem collisionFailsOrFaults : Obligations.CollisionFailsOrFaults := by
  intro s p w hears work drives short q
  have run := exec_collision hears work drives
  have counted : Acts p s (s.modPort p Port.countCollision) q [] [] := countCollision_acts short
  have sameRun : ((s.modPort p Port.countCollision).port p).collisionRun = q.collisionRun := by rw [counted.port]; rfl
  refine ⟨fun below => ?_, fun eighth room => ?_⟩
  · have fails : collide p s = failExchange p .collided (s.modPort p Port.countCollision) :=
      if_neg (by rw [sameRun]; exact Nat.ne_of_lt below)
    rw [fails] at run
    refine ⟨fun r isTxn room => ⟨_, run, ?_⟩, fun r v isProbe sweep room => ⟨_, run, ?_⟩⟩
    · subst isTxn
      exact (counted.fails (failExchange_txn counted.port work .collided)).failsAttempt room
    · subst isProbe
      exact (counted.probes (failExchange_probe counted.port work sweep .collided)).probeEnds room
  · have faults : collide p s = enterFault p .contention .contention (s.modPort p Port.countCollision) :=
      if_pos (by rw [sameRun]; exact eighth)
    rw [faults] at run
    exact ⟨_, run, (counted.after (enterFault_acts (.inr counted.port) .contention .contention)).faultsInto room⟩

theorem exec_frameSent {w : Work} (hears : s.Hears p) (work : (s.port p).inFlight = some ⟨.sending, w⟩)
    (drives : (s.port p).line.driver = .driving) : exec (.frameSent p) s = .next (frameSent p w s) := by
  refine congrArg Host.Outcome.next ((whenReceiving_hears hears _).trans ?_)
  simp only [work]
  exact if_pos (Port.isSending_of work drives)

/-- Settles O38. -/
theorem frameSentOpensTheReplyWindow : Obligations.FrameSentOpensTheReplyWindow := by
  intro s p w hears work drives q opened
  have run := exec_frameSent hears work drives
  have counted : Acts p s (s.modPort p Port.countSent) q [] [] := .modPort rfl
  refine ⟨fun r a e isTxn request station found => ?_, fun r isProbe => ?_, fun r isTxn other room => ?_⟩
  · subst isTxn
    have threshold : q.refresh.stationThreshold r.txn.station = e.threshold := by
      have found' : q.refresh.station a = some e := found
      simp only [Port.stationThreshold, station, Option.bind_some, found']
    have acts : Acts p s (frameSent p (.txn r) s) (opened e.threshold) [] [] := by
      simp only [frameSent, if_pos request]
      refine counted.after (.modPort ?_)
      rw [counted.port, threshold]
      rfl
    exact ⟨_, run, acts.quiet, acts.port⟩
  · subst isProbe
    have acts : Acts p s (frameSent p (.probe r) s) (opened ⟨r.range, r.code⟩) [] [] := by
      show Acts p s ((s.modPort p Port.countSent).modPort p fun q => q.openReply (.probe r) ⟨r.range, r.code⟩) _ _ _
      refine counted.after (.modPort ?_)
      rw [counted.port]
      rfl
    exact ⟨_, run, acts.quiet, acts.port⟩
  · subst isTxn
    have acts := counted.after (completeAndDecide_acts counted.port { r with reply := none } .done)
    rw [show frameSent p (.txn r) s = completeAndDecide p { r with reply := none } .done
        (s.modPort p Port.countSent) from
      if_neg other] at run
    exact ⟨_, run, acts.completes room⟩

/-! ### Start bits and timers -/

theorem Port.takeStart_eq (q : Port) (atLimit : Bool) : q.takeStart atLimit = q.startTaken atLimit := by
  rw [Port.takeStart, sampleActive_eq_sampled, Port.startTaken]
  rcases reply : q.line.reply with _ | n | ⟨n, l⟩
  all_goals
    have same : q.sampled.line.reply = q.line.reply := rfl
    rw [same, reply]
    rfl

theorem takeStart_acts (p : PortId) (atLimit : Bool) (s : State) :
    Acts p s (s.modPort p fun q => q.takeStart atLimit) ((s.port p).startTaken atLimit) [] [] :=
  .modPort (congrArg Port.refresh (Port.takeStart_eq ..))

theorem Port.hunting_of (hunts : q.line.receiver = .hunting) (still : q.line.driver ≠ .driving) : q.hunting = true := by
  simp [Port.hunting, hunts, still]

/-- A start bit while the turnaround timer runs. -/
theorem startBit_turnaround (turns : (s.port p).line.turnaround ≠ none) (atLimit : Bool) :
    startBit p atLimit s = failExchange p .badReply (s.modPort p fun q => q.takeStart atLimit) :=
  if_pos (Option.isSome_iff_ne_none.2 turns)

theorem startBit_quiet (still : (s.port p).line.turnaround = none) (atLimit : Bool) :
    startBit p atLimit s = s.modPort p fun q => q.takeStart atLimit :=
  if_neg (by simp [still])

theorem exec_startBitAccepted (hears : s.Hears p) (hunts : (s.port p).line.receiver = .hunting)
    (still : (s.port p).line.driver ≠ .driving) (atLimit : Bool) :
    exec (.startBitAccepted p atLimit) s = .next (startBit p atLimit s) :=
  congrArg Host.Outcome.next ((whenReceiving_hears hears _).trans (if_pos (Port.hunting_of hunts still)))

theorem exec_startInTurnaround (hears : s.Hears p) (hunts : (s.port p).line.receiver = .hunting)
    (still : (s.port p).line.driver ≠ .driving) (turns : (s.port p).line.turnaround ≠ none) :
    exec (.startInTurnaround p) s = .next (startBit p false s) := by
  refine congrArg Host.Outcome.next ((whenReceiving_hears hears _).trans (if_pos ?_))
  rw [Port.hunting_of hunts still, Option.isSome_iff_ne_none.2 turns]
  rfl

/-- With the reply timer stopped the start bit's limit mark is of no matter. -/
theorem Port.startTaken_stopped (stopped : q.line.reply = .stopped) (atLimit : Bool) :
    q.startTaken atLimit = q.startTaken false := by
  simp only [Port.startTaken, stopped]

/-- A start in the turnaround, whichever command brings it. -/
theorem startInTurnaround_run {c : Instr} (hears : s.Hears p)
    (isStart : c = .startInTurnaround p ∨ ∃ l, c = .startBitAccepted p l)
    (hunts : (s.port p).line.receiver = .hunting) (still : (s.port p).line.driver ≠ .driving)
    (turns : (s.port p).line.turnaround ≠ none) (stopped : (s.port p).line.reply = .stopped) :
    ∃ m, exec c s = .next (failExchange p .badReply m) ∧ Acts p s m ((s.port p).startTaken false) [] [] := by
  rcases isStart with rfl | ⟨l, rfl⟩
  · exact ⟨_, (exec_startInTurnaround hears hunts still turns).trans (congrArg _ (startBit_turnaround turns false)),
      takeStart_acts p false s⟩
  · refine ⟨_, (exec_startBitAccepted hears hunts still l).trans (congrArg _ (startBit_turnaround turns l)), ?_⟩
    have taken := takeStart_acts p l s
    rwa [Port.startTaken_stopped stopped] at taken

/-- Settles O30. -/
theorem startInTurnaroundFailsTheExchange : Obligations.StartInTurnaroundFailsTheExchange := by
  intro s p c hears isStart hunts still turns stopped
  obtain ⟨m, run, taken⟩ := startInTurnaround_run hears isStart hunts still turns stopped
  refine ⟨fun ph r work room => ⟨_, run, ?_⟩, fun ph r w work sweep room => ⟨_, run, ?_⟩⟩
  · exact (taken.fails (failExchange_txn taken.port work .badReply)).failsAttempt room
  · exact (taken.probes (failExchange_probe taken.port work sweep .badReply)).probeEnds room

/-- The reply timer's expiry (R71, R88). -/
theorem replyTimeout_run {ph : Phase} {w : Work} (stands : s.port p = q ∨ s.port p = q.refresh)
    (work : q.inFlight = some ⟨ph, w⟩) :
    ∃ m, replyTimeout p s = failExchange p .noReply m ∧ Acts p s m { q with lateReply := w.target } [] [] := by
  have same : (s.port p).inFlight = some ⟨ph, w⟩ := by rcases stands with e | e <;> rw [e] <;> exact work
  refine ⟨s.modPort p fun q => { q with lateReply := w.target }, ?_, .modPort ?_⟩
  · simp only [replyTimeout, same]
  · rcases stands with e | e
    · rw [e]
    · rw [e]
      rfl

theorem exec_replyTimeout {n : Nat} (hears : s.Hears p) (runs : (s.port p).line.reply = .running n) :
    exec (.replyTimeout p) s = .next (replyTimeout p (yieldToStart p s)) :=
  congrArg Host.Outcome.next ((whenReceiving_hears hears _).trans (if_pos (by rw [runs]; rfl)))

end

end Sys2Proof.Machine

/-! SUPPORT. The reply timeout that the port's own events bring (R71, R88, log 24), and the line that becomes idle:
O32. -/

namespace Sys2Proof.Machine

section
variable {p : PortId} {s t u : State} {q : Port}

/-! ### The order of a timeout and a start bit -/

/-- The reply timer's expiry, as the decision after it finds the port. -/
theorem replyTimeout_atTimeout {ph : Phase} {w : Work} {n : Nat} (hears : s.Hears p)
    (runs : (s.port p).line.reply = .running n) (work : (s.port p).inFlight = some ⟨ph, w⟩) (isAt : s.AtTimeout p q) :
    ∃ m, exec (.replyTimeout p) s = .next (failExchange p .noReply m) ∧
      Acts p s m { q with lateReply := w.target } [] [] ∧ q.inFlight = some ⟨ph, w⟩ ∧ q.sweep = (s.port p).sweep ∧
      (s.StartFirst p → q.line.restCount = 0) := by
  have run := exec_replyTimeout hears runs
  rcases isAt with ⟨first, rfl⟩ | ⟨notFirst, rfl⟩
  · have sampled : Acts p s (s.modPort p Port.sampled) (s.port p).sampled [] [] := .modPort rfl
    obtain ⟨m, fails, late⟩ := replyTimeout_run (.inr sampled.port) work
    rw [yieldToStart_of_start first, fails] at run
    exact ⟨m, run, sampled.after late, work, rfl, fun _ => rfl⟩
  · obtain ⟨m, fails, late⟩ := replyTimeout_run (s := s) (.inl rfl) work
    rw [yieldToStart_of_no_start notFirst, fails] at run
    exact ⟨m, run, late, work, rfl, fun first => absurd first notFirst⟩

/-! ### The late-reply record on a line that is not idle -/

theorem Port.takeHead_lateReply (active : q.line.restCount ≠ 14) : q.takeHead.lateReply = q.lateReply := by
  unfold Port.takeHead
  split
  · rfl
  · rw [Port.beginIfIdle_of_active (by exact active)]

theorem Port.nextWork_lateReply (active : q.line.restCount ≠ 14) : q.nextWork.lateReply = q.lateReply := by
  unfold Port.nextWork
  split
  · split
    · rfl
    · split
      · split
        · exact Port.takeHead_lateReply active
        · rw [Port.takeProbe, Port.beginIfIdle_of_active (by exact active)]
      · exact Port.takeHead_lateReply active
  · rfl

theorem Fails.lateReply {r : TxnRun} {cause : FailCause} (h : Fails p s t q r cause) (active : q.line.restCount ≠ 14) :
    (t.port p).lateReply = q.lateReply := by
  by_cases more : r.used < r.limit
  · rw [(h.1 more).port, Port.beginIfIdle_of_active (by exact active)]
    rfl
  · rw [(h.2 (Nat.not_lt.1 more)).port]
    exact Port.nextWork_lateReply (q := q.failureCounted.afterCompletion r.txn cause.outcome) active

theorem Probes.lateReply {w : Sweep} {code : ThCode} {result : PassEntry} (h : Probes p s t q w code result)
    (active : q.line.restCount ≠ 14) : (t.port p).lateReply = q.lateReply := by
  by_cases last : w.next = 31
  · rw [(h.2 last).port]
    exact Port.nextWork_lateReply (q := { q.probeOver none with stations := (w.tried code result).write q.stations })
        active
  · rw [(h.1 last).port]
    exact Port.nextWork_lateReply (q := q.probeOver (some (w.tried code result))) active

/-! ### Turnaround and the idle line -/

theorem exec_turnaroundExpiry (hears : s.Hears p) : exec (.turnaroundExpiry p) s =
    .next (if (s.port p).line.turnaround.isSome then s.modPort p Port.awaitReply else s) :=
  congrArg Host.Outcome.next (whenReceiving_hears hears _)

theorem turnaroundExpiry_opens {n : Nat} {ph : Phase} {w : Work} (hears : s.Hears p)
    (turns : (s.port p).line.turnaround = some n) (work : (s.port p).inFlight = some ⟨ph, w⟩) :
    ∃ t, exec (.turnaroundExpiry p) s = .next t ∧ Quiet s t p ∧ t.port p = Port.refresh { s.port p with
      inFlight := some ⟨.awaiting, w⟩
      line := { (s.port p).line with
        turnaround := none, reply := .running (s.port p).settings.timeout.toNat } } := by
  refine modPort_next ((exec_turnaroundExpiry hears).trans (congrArg _ (if_pos (by rw [turns]; rfl)))) ?_
  rw [Port.awaitReply, work]
  rfl

theorem turnaroundExpiry_stale (hears : s.Hears p) (still : (s.port p).line.turnaround = none) :
    exec (.turnaroundExpiry p) s = .next s :=
  (exec_turnaroundExpiry hears).trans (congrArg _ (if_neg (by simp [still])))

/-- The frame that work sends, by its kind (R7, R141). -/
theorem Work.frame_txn (r : TxnRun) : (Work.txn r).frame =
    if r.txn.kind = .request then frameChars .request r.txn.address r.txn.payload
    else frameChars .post (if r.txn.kind = .post then r.txn.address else 0) r.txn.payload := by
  simp only [Work.frame]
  rcases kind : r.txn.kind with _ | _ | _ <;> simp

/-- The receiver after a rest-level sample (R4, R85). -/
def Receiver.atRest (r : Receiver) : Receiver := if r = .waitRest then .hunting else r

theorem Port.sampleRest_eq (q : Port) : q.sampleRest =
    { q with line := { q.line with lastSample := some .rest, receiver := q.line.receiver.atRest } } := by
  unfold Port.sampleRest
  rcases q.line.receiver with _ | _ | _ | _ <;> rfl

/-- The port with its line idle, before any work begins (R11). -/
def Port.atIdle (q : Port) : Port :=
  { q with line := { q.line with receiver := q.line.receiver.atRest, restCount := 14, lastSample := some .rest } }

theorem exec_lineBecomesIdle (hears : s.Hears p) (notIn : (s.port p).line.receiver ≠ .inCharacter)
    (still : (s.port p).line.driver ≠ .driving) :
    exec (.lineBecomesIdle p) s = .next (s.modPort p fun q => Port.beginIfIdle q.atIdle) := by
  refine congrArg Host.Outcome.next ((whenReceiving_hears hears _).trans ((if_pos ⟨notIn, still⟩).trans ?_))
  refine congrArg (s.modPort p) (funext fun q => ?_)
  rw [Port.sampleRest_eq]
  rfl

/-- Settles O32. -/
theorem idleLineBeginsWaitingWork : Obligations.IdleLineBeginsWaitingWork := by
  intro s p hears notIn still heard
  have run := exec_lineBecomesIdle hears notIn still
  refine ⟨fun ph w work waits => modPort_next run ?_, fun nothing => modPort_next run ?_⟩
  · rw [Port.beginIfIdle_of_idle (q := (s.port p).atIdle) work waits rfl]
    rcases w with r | r
    · simp only [Work.frame_txn]
      rfl
    · rfl
  · have rests : (s.port p).atIdle.beginIfIdle = (s.port p).atIdle := by
      rcases work : (s.port p).inFlight with _ | f
      · have work' : (s.port p).atIdle.inFlight = none := work
        simp only [Port.beginIfIdle, work']
      · have work' : (s.port p).atIdle.inFlight = some f := work
        obtain ⟨notIdle, notRecovering⟩ := nothing f work
        simp only [Port.beginIfIdle, work', notIdle, notRecovering, or_self, false_and, if_false]
    rw [rests]
    rfl

end

end Sys2Proof.Machine

/-! SUPPORT. Characters and the frame assembler: O29. -/

namespace Sys2Proof.Machine

section
variable {p : PortId} {s t u m : State} {q : Port} {c : RxChar}

/-! ### The end of a character -/

theorem Port.endCharacter_eq (q : Port) (c : RxChar) : q.endCharacter c = q.charEnded c := by
  unfold Port.endCharacter Port.charEnded
  rcases framing : c.framing
  · rcases reply : q.line.reply with _ | n | ⟨n, l⟩
    all_goals
      simp only [Bool.false_eq_true, if_false, reply]
      rfl
  · rcases reply : q.line.reply with _ | n | ⟨n, l⟩
    all_goals
      have sampled : q.sampled.line.reply = q.line.reply := rfl
      simp only [if_true, sampleActive_eq_sampled, sampled, reply]
      rfl

@[simp] theorem Port.charEnded_assembler (q : Port) (c : RxChar) :
    (q.charEnded c).line.assembler = q.line.assembler := by
  unfold Port.charEnded
  split <;> rfl

@[simp] theorem Port.charEnded_inFlight (q : Port) (c : RxChar) : (q.charEnded c).inFlight = q.inFlight := by
  unfold Port.charEnded
  split <;> rfl

@[simp] theorem Port.charEnded_sweep (q : Port) (c : RxChar) : (q.charEnded c).sweep = q.sweep := by
  unfold Port.charEnded
  split <;> rfl

/-- A character whose start bit has been taken, and then the timer that it may have overrun. -/
theorem takeCharacter_run (c : RxChar) (s : State) : ∃ m, Acts p s m ((s.port p).charEnded c) [] [] ∧
    takeCharacter p c s = if (s.port p).line.reply.overdue && !c.mark then replyTimeout p (assemble p c m)
      else assemble p c m :=
  ⟨_, .modPort (congrArg Port.refresh (Port.endCharacter_eq ..)), rfl⟩

theorem Port.not_hunting_of (inside : q.line.receiver = .inCharacter) : q.hunting = false := by
  simp [Port.hunting, inside]

theorem exec_characterReceived (hears : s.Hears p) (inside : (s.port p).line.receiver = .inCharacter) (c : RxChar) :
    exec (.characterReceived p c) s = .next (takeCharacter p c s) := by
  refine congrArg Host.Outcome.next ((whenReceiving_hears hears _).trans ?_)
  simp only [Port.not_hunting_of inside, inside, Bool.false_eq_true, if_false, if_true]

theorem exec_characterReceived_hunting (hears : s.Hears p) (hunts : (s.port p).line.receiver = .hunting)
    (still : (s.port p).line.driver ≠ .driving) (c : RxChar) :
    exec (.characterReceived p c) s = .next (takeCharacter p c (startBit p false s)) :=
  congrArg Host.Outcome.next ((whenReceiving_hears hears _).trans (if_pos (Port.hunting_of hunts still)))

/-- A head, whatever the timer. -/
theorem characterReceived_marked (hears : s.Hears p) (inside : (s.port p).line.receiver = .inCharacter)
    (marked : c.mark = true) : ∃ m, Acts p s m ((s.port p).charEnded c) [] [] ∧
      exec (.characterReceived p c) s = .next (assemble p c m) := by
  obtain ⟨m, ended, run⟩ := takeCharacter_run (p := p) c s
  refine ⟨m, ended, (exec_characterReceived hears inside c).trans (congrArg _ (run.trans (if_neg ?_)))⟩
  simp [marked]

/-- The rest of a character's taking. -/
def afterCharacter (p : PortId) (overdue : Bool) (s : State) : State := if overdue then replyTimeout p s else s

theorem characterReceived_unmarked (hears : s.Hears p) (inside : (s.port p).line.receiver = .inCharacter)
    (plain : c.mark = false) : ∃ m, Acts p s m ((s.port p).charEnded c) [] [] ∧
      exec (.characterReceived p c) s = .next (afterCharacter p (s.port p).line.reply.overdue (assemble p c m)) := by
  obtain ⟨m, ended, run⟩ := takeCharacter_run (p := p) c s
  refine ⟨m, ended, (exec_characterReceived hears inside c).trans (congrArg _ (run.trans ?_))⟩
  simp only [plain, Bool.not_false, Bool.and_true, afterCharacter]

/-! ### The assembler -/

theorem assemble_hunt (stands : m.port p = q.refresh) (hunt : q.line.assembler = .hunt) (c : RxChar) :
    assemble p c m = if c.mark then openFrame p c m else m := by
  have same : (m.port p).line.assembler = .hunt := by rw [stands]; exact hunt
  simp only [assemble, same]

theorem assemble_frame {w : Awaited} {r : FrameRec} (stands : m.port p = q.refresh)
    (frame : q.line.assembler = .assembling w r) (c : RxChar) : assemble p c m =
      if c.mark then openFrame p c (endFrame p .interrupted r m) else addCharacter p w (r.note c) c.data m := by
  have same : (m.port p).line.assembler = .assembling w r := by rw [stands]; exact frame
  simp only [assemble, same]

/-- The port once the assembler awaits `w` with the record `r`. -/
def Port.awaiting (q : Port) (w : Awaited) (r : FrameRec) : Port :=
  { q with line := { q.line with gapRunning := true, assembler := .assembling w r } }

theorem setAssembler_acts (stands : m.port p = q.refresh) (w : Awaited) (r : FrameRec) :
    Acts p m (m.modPort p fun q => q.setAssembler (.assembling w r)) (q.awaiting w r) [] [] :=
  .modPort (by rw [stands]; rfl)

/-- A byte that ends no frame is added; a COUNT is then shown to the port engine. -/
theorem addCharacter_grown {w w' : Awaited} {r r' : FrameRec} {b : Byte} (grown : r.grown w b = some (w', r'))
    (m : State) : addCharacter p w r b m =
      if w = .count then countTaken p b (m.modPort p fun q => q.setAssembler (.assembling w' r'))
      else m.modPort p fun q => q.setAssembler (.assembling w' r') := by
  rcases w with _ | _ | _ | _
  · by_cases fits : b.toNat ≤ 48
    · simp only [FrameRec.grown, if_pos fits, Option.some.injEq, Prod.mk.injEq] at grown
      obtain ⟨rfl, rfl⟩ := grown
      exact (if_pos fits :)
    · simp only [FrameRec.grown, if_neg fits, reduceCtorEq] at grown
  · simp only [FrameRec.grown, Option.some.injEq, Prod.mk.injEq] at grown
    obtain ⟨rfl, rfl⟩ := grown
    have same : (r.count.map BitVec.toNat = some (r.payload.length + 1)) ↔
        ((r.payload ++ [b]).length = (r.count.getD 0).toNat) := by
      rcases r.count with _ | n <;> simp [eq_comm]
    simp only [same]
    rfl
  · simp only [FrameRec.grown, Option.some.injEq, Prod.mk.injEq] at grown
    obtain ⟨rfl, rfl⟩ := grown
    rfl
  · cases grown

theorem addCharacter_checkHigh (r : FrameRec) (b : Byte) (m : State) :
    addCharacter p .checkHigh r b m = endFrame p .complete { r with checkHi := some b } m := rfl

theorem addCharacter_overlength {r : FrameRec} {b : Byte} (excess : 48 < b.toNat) (m : State) :
    addCharacter p .count r b m = endFrame p .overlength { r with count := some b } m :=
  if_neg (Nat.not_le.2 excess)

/-- A COUNT that is no more than the reply limit allows, or that no reply awaits. -/
theorem countTaken_allowed {b : Byte} (stands : m.port p = q.refresh)
    (allowed : ∀ run, q.inFlight = some ⟨.receiving, .txn run⟩ →
      ∃ limit, run.txn.replyLimit = some limit ∧ b.toNat ≤ limit) :
    countTaken p b m = m := by
  have same : (m.port p).inFlight = q.inFlight := by rw [stands]; rfl
  unfold countTaken
  rw [same]
  rcases work : q.inFlight with _ | ⟨ph, run | run⟩
  · rfl
  · refine if_neg ?_
    rintro ⟨receiving, excess⟩
    cases receiving
    obtain ⟨limit, isLimit, within⟩ := allowed run work
    rw [isLimit, Option.getD_some] at excess
    omega
  · rfl

theorem countTaken_over {b : Byte} {run : TxnRun} {limit : Nat} (stands : m.port p = q.refresh)
    (work : q.inFlight = some ⟨.receiving, .txn run⟩) (isLimit : run.txn.replyLimit = some limit)
    (excess : limit < b.toNat) :
    countTaken p b m = failAttempt p run .badReply m := by
  have same : (m.port p).inFlight = some ⟨.receiving, .txn run⟩ := by rw [stands]; exact work
  simp only [countTaken, same, isLimit, Option.getD_some, excess, and_self, if_true]

/-- The end of a frame: the noise is charged, and the port engine judges. -/
theorem endFrame_run (stands : m.port p = q ∨ m.port p = q.refresh) (e : Ending) (r : FrameRec) :
    ∃ n, Acts p m n (q.frameEnded r) [] [] ∧
      endFrame p e r m = judgeFrame p e (decide (e = .complete) && r.checkGood) r n := by
  refine ⟨reportNoise p r (m.modPort p fun q => q.setAssembler .hunt), ?_, rfl⟩
  have hunts : Acts p m (m.modPort p fun q => q.setAssembler .hunt)
      { q with line := { q.line with assembler := .hunt, gapRunning := false } } [] [] := by
    refine .modPort ?_
    rcases stands with same | same
    · rw [same]
      rfl
    · rw [same]
      rfl
  unfold reportNoise Port.frameEnded
  by_cases reply : r.kind = .reply
  · simp only [if_pos reply]
    refine hunts.after (.modPort ?_)
    rw [hunts.port]
    rfl
  · simp only [if_neg reply]
    exact hunts

/-- Outside RECEIVING a frame end judges nothing. -/
theorem judgeFrame_other (stands : m.port p = q.refresh) (e : Ending) (g : Bool) (r : FrameRec)
    (other : ∀ f, q.inFlight = some f → f.phase ≠ .receiving) : judgeFrame p e g r m = m := by
  have same : (m.port p).inFlight = q.inFlight := by rw [stands]; rfl
  unfold judgeFrame
  rw [same]
  rcases work : q.inFlight with _ | f
  · rfl
  · exact if_neg (other f work)

theorem judgeFrame_txn {run : TxnRun} (stands : m.port p = q.refresh) (e : Ending) (g : Bool) (r : FrameRec)
    (work : q.inFlight = some ⟨.receiving, .txn run⟩) : judgeFrame p e g r m =
      if r.clean e g then completeAndDecide p { run with reply := some r.payload } .done m
      else failAttempt p run .badReply m := by
  have same : (m.port p).inFlight = some ⟨.receiving, .txn run⟩ := by rw [stands]; exact work
  simp only [judgeFrame, same, if_true]

theorem judgeFrame_probe {run : ProbeRun} (stands : m.port p = q.refresh) (e : Ending) (g : Bool) (r : FrameRec)
    (work : q.inFlight = some ⟨.receiving, .probe run⟩) : judgeFrame p e g r m =
      endProbe p run (r.clean e g && r.echoes run.code) m := by
  have same : (m.port p).inFlight = some ⟨.receiving, .probe run⟩ := by rw [stands]; exact work
  simp only [judgeFrame, same, if_true]

/-! ### O29 -/

theorem ReplyTimer.not_overdue {r : ReplyTimer} (inTime : ∀ n, r ≠ .held n true) : r.overdue = false := by
  rcases r with _ | n | ⟨n, _ | _⟩
  · rfl
  · rfl
  · rfl
  · exact absurd rfl (inTime n)

theorem exec_deaf (deaf : s.power ≠ .running ∨ (s.port p).line.receiver = .off) (f : State → State) :
    whenReceiving p s f = s := by
  by_cases running : s.power = .running
  · exact (whenRunning_running running _).trans (if_pos (deaf.resolve_left fun h => h running))
  · exact whenRunning_not running _

/-- Settles O29. -/
theorem receiverTakesSamplesStartsAndCharacters : Obligations.ReceiverTakesSamplesStartsAndCharacters := by
  intro s p atLimit c
  refine ⟨fun deaf e mem => ?_, fun hears => ⟨?active, ?rest, fun hunts still none => ⟨?stale, ?start⟩,
    fun inside plain inTime => ⟨fun hunt => ?unmarked, fun w before w' r frame grown allowed => ?added⟩⟩⟩
  · have nothing (f : State → State) : Host.Outcome.next (whenReceiving p s f) =
        (.next s : Host.Outcome State Fault Refusal) := congrArg _ (exec_deaf deaf f)
    simp only [List.mem_cons, List.not_mem_nil, or_false] at mem
    rcases mem with rfl | rfl | rfl | rfl | rfl | rfl | rfl | rfl | rfl | rfl | rfl | rfl <;> exact nothing _
  case active =>
    exact modPort_next (congrArg Host.Outcome.next (whenReceiving_hears hears _))
      (congrArg Port.refresh (sampleActive_eq_sampled _))
  case rest =>
    exact modPort_next (congrArg Host.Outcome.next (whenReceiving_hears hears _))
      (congrArg Port.refresh (Port.sampleRest_eq _))
  case stale =>
    exact congrArg Host.Outcome.next ((whenReceiving_hears hears _).trans (if_neg (by simp [none])))
  case start =>
    have taken := takeStart_acts p atLimit s
    refine ⟨_, (exec_startBitAccepted hears hunts still atLimit).trans (congrArg _ (startBit_quiet none atLimit)),
      taken.quiet, taken.port⟩
  case unmarked =>
    obtain ⟨m, ended, run⟩ := characterReceived_unmarked hears inside plain
    have hunt' := (Port.charEnded_assembler (s.port p) c).trans hunt
    rw [ReplyTimer.not_overdue inTime, assemble_hunt ended.port hunt', plain] at run
    exact ⟨_, run, ended.quiet, ended.port⟩
  case added =>
    obtain ⟨m, ended, run⟩ := characterReceived_unmarked hears inside plain
    have added := ended.after (setAssembler_acts ended.port w' r)
    have counts : addCharacter p w (before.note c) c.data m =
        m.modPort p fun q => q.setAssembler (.assembling w' r) := by
      rw [addCharacter_grown grown]
      split
      · next isCount =>
        refine countTaken_allowed added.port fun run work => allowed run ?_ isCount
        exact (Port.charEnded_inFlight ..).symm.trans work
      · rfl
    have frame' := (Port.charEnded_assembler (s.port p) c).trans frame
    rw [ReplyTimer.not_overdue inTime, assemble_frame ended.port frame', plain, if_neg (by decide), counts] at run
    exact ⟨_, run, added.quiet, added.port⟩

end

end Sys2Proof.Machine

/-! SUPPORT. Frame ends and what the port engine judges by them, and the timers of the reply window: O31 and the frame
ends of O37. -/

namespace Sys2Proof.Machine

section
variable {p : PortId} {s t u m : State} {q : Port} {c : Instr} {r : FrameRec} {good : Bool}

@[simp] theorem Port.frameEnded_inFlight (q : Port) (r : FrameRec) : (q.frameEnded r).inFlight = q.inFlight := rfl
@[simp] theorem Port.frameEnded_sweep (q : Port) (r : FrameRec) : (q.frameEnded r).sweep = q.sweep := rfl

/-- A frame end that no head brings: the noise is charged, the port engine judges, and an overdue timer is released. -/
theorem frameEnds_run (hears : s.Hears p) (ends : s.FrameEnds p c q r good) :
    ∃ m e g late, exec c s = .next (afterCharacter p late (judgeFrame p e g r m)) ∧ Acts p s m q [] [] ∧
      r.clean e g = good ∧ q.inFlight = (s.port p).inFlight ∧ q.sweep = (s.port p).sweep ∧
      ((s.port p).line.reply = .stopped → late = false) ∧
      (∀ ch, c = .characterReceived p ch → late = (s.port p).line.reply.overdue) := by
  rcases ends with ⟨before, ch, rfl, inside, plain, frame, rfl, rfl, rfl⟩ |
    ⟨before, ch, rfl, inside, plain, frame, tooMany, rfl, rfl, rfl⟩ | ⟨w, rfl, frame, runs, rfl, rfl⟩
  · obtain ⟨m, ended, run⟩ := characterReceived_unmarked hears inside plain
    have frame' := (Port.charEnded_assembler (s.port p) ch).trans frame
    rw [assemble_frame ended.port frame', plain, if_neg (by decide), addCharacter_checkHigh] at run
    obtain ⟨n, noted, judged⟩ := endFrame_run
        (.inr ended.port) .complete { before.note ch with checkHi := some ch.data }
    rw [judged] at run
    refine ⟨n, _, _, _, run, ended.after noted, ?_, by simp, by simp, fun stopped => ?_, fun _ _ => rfl⟩
    · simp [FrameRec.clean, Bool.and_comm]
    · rw [stopped]
      rfl
  · obtain ⟨m, ended, run⟩ := characterReceived_unmarked hears inside plain
    have frame' := (Port.charEnded_assembler (s.port p) ch).trans frame
    rw [assemble_frame ended.port frame', plain, if_neg (by decide), addCharacter_overlength tooMany] at run
    obtain ⟨n, noted, judged⟩ := endFrame_run
        (.inr ended.port) .overlength { before.note ch with count := some ch.data }
    rw [judged] at run
    refine ⟨n, _, _, _, run, ended.after noted, by simp [FrameRec.clean], by simp, by simp, fun stopped => ?_,
      fun _ _ => rfl⟩
    rw [stopped]
    rfl
  · obtain ⟨n, noted, judged⟩ := endFrame_run (m := s) (p := p) (.inl rfl) .truncated r
    have run : exec (.characterGapExpiry p) s = .next (endFrame p .truncated r s) := by
      refine congrArg Host.Outcome.next ((whenReceiving_hears hears _).trans ?_)
      simp only [frame, runs, if_true]
    rw [judged] at run
    exact ⟨n, _, _, false, run, noted, by simp [FrameRec.clean], rfl, rfl, fun _ => rfl, fun _ => nofun⟩

/-- What a frame end decides for the transaction that waits for it (R73). -/
theorem judgeFrame_decides {run : TxnRun} {e : Ending} {g : Bool} (stands : m.port p = q.refresh)
    (clean : r.clean e g = good) (work : q.inFlight = some ⟨.receiving, .txn run⟩) :
    (good = true → Acts p m (judgeFrame p e g r m) (Port.nextWork (q.afterCompletion run.txn .done))
      (q.completionNotices p run.txn .done run.used (some r.payload)) [run.txn.tag]) ∧
    (good = false → Fails p m (judgeFrame p e g r m) q run .badReply) := by
  rw [judgeFrame_txn stands e g r work, clean]
  refine ⟨fun isGood => ?_, fun isBad => ?_⟩
  · rw [if_pos isGood]
    exact completeAndDecide_acts stands { run with reply := some r.payload } .done
  · rw [if_neg (by simp [isBad])]
    exact failAttempt_fails stands run .badReply

/-- And for a probe (R144). -/
theorem judgeFrame_probes {run : ProbeRun} {w : Sweep} {e : Ending} {g : Bool} (stands : m.port p = q.refresh)
    (clean : r.clean e g = good) (work : q.inFlight = some ⟨.receiving, .probe run⟩) (sweep : q.sweep = some w) :
    Probes p m (judgeFrame p e g r m) q w run.code
      (if good = true ∧ r.count = some 16 ∧ r.payload = probePattern run.code then .pass else .fail) := by
  have same : (if good = true ∧ r.count = some 16 ∧ r.payload = probePattern run.code then PassEntry.pass else .fail) =
      passEntry (r.clean e g && r.echoes run.code) := by
    rw [clean]
    simp [passEntry, FrameRec.echoes]
  rw [judgeFrame_probe stands e g r work, same]
  exact endProbe_probes stands sweep run _

/-- An unmarked character that a receiver outside RECEIVING takes: only the port's line hears of it, and then the timer
that it may have overrun expires. -/
theorem takesUnmarked_run {ch : RxChar} (hears : s.Hears p) (takes : s.TakesUnmarked p ch q)
    (other : ∀ f, (s.port p).inFlight = some f → f.phase ≠ .receiving) :
    ∃ m, exec (.characterReceived p ch) s = .next (afterCharacter p (s.port p).line.reply.overdue m) ∧
      Acts p s m q [] [] ∧ q.inFlight = (s.port p).inFlight ∧ q.sweep = (s.port p).sweep := by
  obtain ⟨inside, plain, ⟨hunt, rfl⟩ | ⟨w, before, w', r, frame, grown, rfl⟩ | ⟨r, good, ends⟩⟩ := takes
  · obtain ⟨m, ended, run⟩ := characterReceived_unmarked hears inside plain
    rw [assemble_hunt ended.port ((Port.charEnded_assembler ..).trans hunt), plain] at run
    exact ⟨m, run, ended, by simp, by simp⟩
  · obtain ⟨m, ended, run⟩ := characterReceived_unmarked hears inside plain
    have added := ended.after (setAssembler_acts ended.port w' r)
    have counts : addCharacter p w (before.note ch) ch.data m =
        m.modPort p fun q => q.setAssembler (.assembling w' r) := by
      rw [addCharacter_grown grown]
      split
      · refine countTaken_allowed added.port fun run work => ?_
        exact absurd rfl (other _ ((Port.charEnded_inFlight ..).symm.trans work))
      · rfl
    have frame' := (Port.charEnded_assembler (s.port p) ch).trans frame
    rw [assemble_frame ended.port frame', plain, if_neg (by decide), counts] at run
    exact ⟨_, run, added, Port.charEnded_inFlight .., Port.charEnded_sweep ..⟩
  · obtain ⟨m, e, g, late, run, acts, -, work, sweep, -, isLate⟩ := frameEnds_run hears ends
    rw [isLate ch rfl, judgeFrame_other acts.port e g r (by rw [work]; exact other)] at run
    exact ⟨m, run, acts, work, sweep⟩

/-- An overdue timer, released by an unmarked character in AWAITING, expires. -/
theorem overdueCharacter_run {ch : RxChar} {n : Nat} {w : Work} (hears : s.Hears p) (takes : s.TakesUnmarked p ch q)
    (held : (s.port p).line.reply = .held n true) (work : (s.port p).inFlight = some ⟨.awaiting, w⟩) :
    ∃ m, exec (.characterReceived p ch) s = .next (failExchange p .noReply m) ∧
      Acts p s m { q with lateReply := w.target } [] [] ∧ q.inFlight = some ⟨.awaiting, w⟩ ∧
      q.sweep = (s.port p).sweep := by
  obtain ⟨m, run, acts, sameWork, sameSweep⟩ := takesUnmarked_run hears takes fun f isF => by
    rw [work] at isF
    cases isF
    nofun
  obtain ⟨m', fails, late⟩ := replyTimeout_run (.inr acts.port) (sameWork.trans work)
  rw [held, show ReplyTimer.overdue (.held n true) = true from rfl, afterCharacter, if_pos rfl, fails] at run
  exact ⟨m', run, acts.after late, sameWork.trans work, sameSweep⟩

/-- Settles O31. -/
theorem replyWindowTimersExpire : Obligations.ReplyWindowTimersExpire := by
  intro s p hears
  refine ⟨fun n ph w turns work => turnaroundExpiry_opens hears turns work, turnaroundExpiry_stale hears,
    fun n ph r q runs work room isAt => ?txn, fun n ph r w q runs work sweep room isAt => ?probe,
    fun ch q n takes held => ⟨fun r work room => ?heldTxn, fun r w work sweep room => ?heldProbe⟩, fun still => ?stale⟩
  case txn =>
    obtain ⟨m, run, late, sameWork, -, active⟩ := replyTimeout_atTimeout hears runs work isAt
    have fails := late.fails (failExchange_txn late.port sameWork .noReply)
    exact ⟨_, run, fails.failsAttempt room, fun first => fails.lateReply (by simp [active first])⟩
  case probe =>
    obtain ⟨m, run, late, sameWork, sameSweep, active⟩ := replyTimeout_atTimeout hears runs work isAt
    have ends := late.probes (failExchange_probe late.port sameWork (sameSweep.trans sweep) .noReply)
    exact ⟨_, run, ends.probeEnds room, fun first => ends.lateReply (by simp [active first])⟩
  case heldTxn =>
    obtain ⟨m, run, late, sameWork, -⟩ := overdueCharacter_run hears takes held work
    exact ⟨_, run, (late.fails (failExchange_txn late.port sameWork .noReply)).failsAttempt room⟩
  case heldProbe =>
    obtain ⟨m, run, late, sameWork, sameSweep⟩ := overdueCharacter_run hears takes held work
    exact ⟨_, run,
      (late.probes (failExchange_probe late.port sameWork (sameSweep.trans sweep) .noReply)).probeEnds room⟩
  case stale =>
    refine congrArg Host.Outcome.next ((whenReceiving_hears hears _).trans (if_neg ?_))
    rcases reply : (s.port p).line.reply with _ | n | ⟨n, l⟩
    · decide
    · exact absurd reply (still n)
    · exact Bool.false_ne_true

end

end Sys2Proof.Machine

/-! SUPPORT. Heads and strikes: O33 to O35. -/

namespace Sys2Proof.Machine

section
variable {p : PortId} {s t u m : State} {q : Port} {c : RxChar} {a : Addr}

/-! ### The head at the assembler -/

@[simp] theorem Port.headArrived_inFlight (q : Port) (c : RxChar) : (q.headArrived c).inFlight = q.inFlight := by
  unfold Port.headArrived
  split <;> simp

@[simp] theorem Port.headArrived_sweep (q : Port) (c : RxChar) : (q.headArrived c).sweep = q.sweep := by
  unfold Port.headArrived
  split <;> simp

@[simp] theorem Port.headArrived_lateReply (q : Port) (c : RxChar) : (q.headArrived c).lateReply = q.lateReply := by
  have ended : (q.charEnded c).lateReply = q.lateReply := by
    unfold Port.charEnded
    split <;> rfl
  unfold Port.headArrived
  split <;> exact ended

@[simp] theorem Port.headOpened_inFlight (q : Port) (c : RxChar) : (q.headOpened c).inFlight = q.inFlight :=
  q.headArrived_inFlight c
@[simp] theorem Port.headOpened_sweep (q : Port) (c : RxChar) : (q.headOpened c).sweep = q.sweep :=
  q.headArrived_sweep c
@[simp] theorem Port.headOpened_lateReply (q : Port) (c : RxChar) : (q.headOpened c).lateReply = q.lateReply :=
  q.headArrived_lateReply c

/-- The head opens its record, and the port engine takes it (R8). -/
theorem openFrame_run (stands : m.port p = q.refresh) (c : RxChar) :
    ∃ n, Acts p m n (q.awaiting .count (FrameRec.opened c)) [] [] ∧
      openFrame p c m = headTaken p (kindOfHead c.data) (addrOfHead c.data) n :=
  ⟨_, setAssembler_acts stands _ _, rfl⟩

/-- A head that ends no exchange by interrupting its reply. -/
theorem head_run (hears : s.Hears p) (inside : (s.port p).line.receiver = .inCharacter) (marked : c.mark = true)
    (uncut : ∀ f, (s.port p).inFlight = some f → f.phase = .receiving → (s.port p).line.assembler = .hunt) :
    ∃ m, Acts p s m ((s.port p).headOpened c) [] [] ∧
      exec (.characterReceived p c) s = .next (headTaken p (kindOfHead c.data) (addrOfHead c.data) m) := by
  obtain ⟨m, ended, run⟩ := characterReceived_marked hears inside marked
  rcases isAssembler : (s.port p).line.assembler with _ | ⟨w, r⟩
  · have hunt' := (Port.charEnded_assembler (s.port p) c).trans isAssembler
    obtain ⟨n, opened, taken⟩ := openFrame_run ended.port c
    rw [assemble_hunt ended.port hunt', if_pos marked, taken] at run
    have arrived : (s.port p).headArrived c = (s.port p).charEnded c := by rw [Port.headArrived, isAssembler]
    refine ⟨n, ?_, run⟩
    rw [Port.headOpened, arrived]
    exact ended.after opened
  · have frame' := (Port.charEnded_assembler (s.port p) c).trans isAssembler
    obtain ⟨n, noted, judged⟩ := endFrame_run (.inr ended.port) .interrupted r
    have other : judgeFrame p .interrupted (decide (Ending.interrupted = .complete) && r.checkGood) r n = n := by
      refine judgeFrame_other noted.port _ _ r fun f work receiving => ?_
      rw [Port.frameEnded_inFlight, Port.charEnded_inFlight] at work
      cases isAssembler.symm.trans (uncut f work receiving)
    obtain ⟨n', opened, taken⟩ := openFrame_run noted.port c
    rw [assemble_frame ended.port frame', if_pos marked, judged, other, taken] at run
    have arrived : (s.port p).headArrived c = ((s.port p).charEnded c).frameEnded r := by
      rw [Port.headArrived, isAssembler]
    refine ⟨n', ?_, run⟩
    rw [Port.headOpened, arrived]
    exact (ended.after noted).after opened

/-! ### Heads outside the window -/

theorem headTaken_outside (stands : m.port p = q.refresh) (k : FrameKind) (a : Addr)
    (outside : ∀ f, q.inFlight = some f → f.phase ≠ .awaiting) : headTaken p k a m = outsideHead p k a m := by
  have same : (m.port p).inFlight = q.inFlight := by rw [stands]; rfl
  unfold headTaken
  rw [same]
  rcases work : q.inFlight with _ | f
  · rfl
  · exact if_neg (outside f work)

theorem strayCounted_acts (stands : m.port p = q.refresh) :
    Acts p m (m.modPort p Port.countStray) q.strayCounted [] [] := .modPort (by rw [stands]; rfl)

theorem strike_absent (stands : m.port p = q.refresh) (absent : q.station a = none) :
    strike p a m = m.modPort p Port.countStray := by
  have same : (m.port p).station a = none := by rw [stands]; exact absent
  simp only [strike, same]

/-- What a strike does to a station of the table (R44). -/
theorem strike_found {e : Station} (stands : m.port p = q.refresh) (found : q.station a = some e) : strike p a m =
    if e.strikes = 0 then m.modPort p fun q => q.modStation a fun e => { e with strikes := 1 }
    else if e.strikes = 1 then
      quarantineEntry p a (postNotice (.stationState p a .quarantined .strike)
        (m.modPort p fun q => q.modStation a fun e => { e with strikes := 2, state := .quarantined }))
    else m := by
  have same : (m.port p).station a = some e := by rw [stands]; exact found
  simp only [strike, same]

/-- The port with a first strike against station `a` (R44). -/
def Port.struckOnce (q : Port) (a : Addr) : Port := q.modStation a fun e => { e with strikes := 1 }

theorem strike_first {e : Station} (stands : m.port p = q.refresh) (found : q.station a = some e)
    (none : e.strikes = 0) : Acts p m (strike p a m) (q.struckOnce a) [] [] := by
  rw [strike_found stands found, if_pos none]
  exact .modPort (by rw [stands]; rfl)

theorem strike_third {e : Station} (stands : m.port p = q.refresh) (found : q.station a = some e)
    (two : 2 ≤ e.strikes) : strike p a m = m := by
  rw [strike_found stands found, if_neg (by omega), if_neg (by omega)]

theorem outsideHead_late (stands : m.port p = q.refresh) {late : Addr} (record : q.lateReply = some late) (a : Addr) :
    outsideHead p .reply a m = if late = a then m.modPort p fun q => q.lateReport a else strike p a m := by
  have same : (m.port p).lateReply = some late := by rw [stands]; exact record
  simp only [outsideHead, same, ne_eq, not_true, if_false]

theorem lateReport_acts (stands : m.port p = q.refresh) {e : Station} (found : q.station a = some e) :
    Acts p m (m.modPort p fun q => q.lateReport a)
        (q.modStation a fun e => { e with late := satInc e.late }) [] [] := by
  refine .modPort ?_
  have same : (m.port p).station a = some e := by rw [stands]; exact found
  rw [Port.lateReport, same, stands]
  rfl

/-- A head that no late reply and no strike explains is a stray frame (R90, R93). -/
theorem outsideHead_stray {k : FrameKind} (stands : m.port p = q.refresh)
    (stray : k ≠ .reply ∨ q.lateReply = none ∨ q.station a = none) :
    outsideHead p k a m = m.modPort p Port.countStray := by
  have sameLate : (m.port p).lateReply = q.lateReply := by rw [stands]; rfl
  by_cases reply : k = .reply
  · subst reply
    rcases record : q.lateReply with _ | late
    · simp only [outsideHead, sameLate, record, ne_eq, not_true, if_false]
    · have absent : q.station a = none := (stray.resolve_left fun h => h rfl).resolve_left (by simp [record])
      rw [outsideHead_late stands record, strike_absent stands absent]
      refine ite_eq_right_iff.2 fun _ => ?_
      have same : (m.port p).station a = none := by rw [stands]; exact absent
      rw [State.modPort, Port.lateReport, same]
      rfl
  · exact if_pos reply

/-- Settles O33. -/
theorem headsOutsideTheWindowAreClassified : Obligations.HeadsOutsideTheWindowAreClassified := by
  intro s p c hears inside marked outside q a
  obtain ⟨m, opened, run⟩ := head_run hears inside marked fun f work => (outside f work).2
  have noWindow : ∀ f, q.inFlight = some f → f.phase ≠ .awaiting := fun f work =>
    (outside f ((Port.headOpened_inFlight ..).symm.trans work)).1
  rw [headTaken_outside opened.port _ _ noWindow] at run
  refine ⟨fun stray => ?_, fun reply late e record found =>
    ⟨fun same => ?_, fun other none => ?_, fun other two => ?_⟩⟩
  · rw [outsideHead_stray opened.port stray] at run
    have counted := opened.after (strayCounted_acts opened.port)
    exact ⟨_, run, counted.quiet, counted.port⟩
  all_goals rw [reply, outsideHead_late opened.port record] at run
  · rw [if_pos same] at run
    have reported := opened.after (lateReport_acts opened.port found)
    exact ⟨_, run, reported.quiet, reported.port⟩
  · rw [if_neg other] at run
    have struck := opened.after (strike_first opened.port found none)
    exact ⟨_, run, struck.quiet, struck.port⟩
  · rw [if_neg other, strike_third opened.port found two] at run
    exact ⟨_, run, opened.quiet, opened.port⟩

end

end Sys2Proof.Machine

/-! SUPPORT. The second strike and the quarantine (R44, R45), and the heads that bring it: O34 and O35. -/

namespace Sys2Proof.Machine

section
variable {p : PortId} {s t u m : State} {q : Port} {c : RxChar} {a : Addr}

/-! ### Transactions that end without touching their station's entry -/

theorem Port.tableAfter_leaves (q : Port) (x : Txn) {o : TxnOutcome} (leaves : o.leavesEntry = true) :
    q.tableAfter x o = q := by
  unfold Port.tableAfter
  rcases x.station with _ | a
  · rfl
  · exact (congrArg (q.modStation a) (funext fun e => Station.complete_leaves e x.kind leaves)).trans
      (Port.modStation_id q a)

theorem Port.completionNotices_leaves (q : Port) (p : PortId) (x : Txn) {o : TxnOutcome} (leaves : o.leavesEntry = true)
    (used : Nat) (reply : Option (List Byte)) :
    q.completionNotices p x o used reply = [.txnDone x.tag p o used reply] := by
  unfold Port.completionNotices
  rcases x.station with _ | a
  · rfl
  · rcases found : q.station a with _ | e
    · simp only [found]
    · simp only [found, Station.complete_leaves e x.kind leaves, if_true]

theorem finish_ends (stands : s.port p = q.refresh) (x : Txn) {o : TxnOutcome} (leaves : o.leavesEntry = true)
    (used : Nat) (reply : Option (List Byte)) :
    Acts p s (finish p x o used reply s) q [.txnDone x.tag p o used reply] [x.tag] := by
  have finished := finish_acts stands x o used reply
  rwa [Port.tableAfter_leaves q x leaves, Port.completionNotices_leaves q p x leaves] at finished

theorem finishAll_acts (stands : s.port p = q.refresh) {o : TxnOutcome} (leaves : o.leavesEntry = true)
    (ts : List Txn) :
    Acts p s (finishAll p o ts s) q (ts.map fun x => .txnDone x.tag p o 0 none) (ts.map Txn.tag) := by
  induction ts generalizing s with
  | nil => exact .refl stands
  | cons x ts ih =>
    have first := finish_ends stands x leaves 0 none
    exact first.trans (ih first.port)

theorem endInFlight_acts (stands : s.port p = q.refresh) {o : TxnOutcome} (leaves : o.leavesEntry = true) :
    Acts p s (endInFlight p o s) q.withoutWork (q.inFlightNotices p o) q.inFlightTags := by
  have same : (s.port p).inFlight = q.inFlight := by rw [stands]; rfl
  have ended : Acts p s (s.modPort p Port.endExchange) q.endExchange [] [] := .modPort (by rw [stands]; rfl)
  unfold endInFlight Port.withoutWork Port.inFlightNotices Port.inFlightTags
  rw [same]
  rcases q.inFlight with _ | ⟨ph, r | r⟩
  · exact .refl stands
  · simp only [reduceCtorEq, if_false]
    exact ended.after (finish_ends ended.port r.txn leaves r.used none)
  · simp only [reduceCtorEq, if_false]
    exact ended

/-! ### The three steps of R45 -/

/-- The port once its in-flight work to station `a` has ended. -/
def Port.unrun (q : Port) (a : Addr) : Port := if q.runsFor a then q.withoutWork else q

theorem quarantineInFlight_acts (stands : s.port p = q.refresh) (a : Addr) :
    Acts p s (quarantineInFlight p a s) (q.unrun a)
      ((q.endedRun a).toList.map fun r => .txnDone r.txn.tag p .stationQuarantined r.used none)
      ((q.endedRun a).toList.map fun r => r.txn.tag) := by
  have same : (s.port p).runsFor a = q.runsFor a := by rw [stands]; rfl
  have ends := endInFlight_acts stands (o := .stationQuarantined) rfl
  unfold quarantineInFlight Port.unrun
  rw [same]
  by_cases runs : q.runsFor a = true
  · rw [if_pos runs, if_pos runs]
    unfold Port.runsFor at runs
    unfold Port.endedRun
    unfold Port.inFlightNotices Port.inFlightTags at ends
    rcases work : q.inFlight with _ | ⟨ph, r | r⟩
    · rw [work] at runs
      cases runs
    · rw [work] at runs ends
      have station : r.txn.station = some a := by simpa [Work.names] using runs
      simp only [station, if_true]
      exact ends
    · rw [work] at ends
      exact ends
  · rw [if_neg runs, if_neg runs]
    have none : q.endedRun a = none := by
      unfold Port.runsFor at runs
      unfold Port.endedRun
      rcases work : q.inFlight with _ | ⟨ph, r | r⟩
      · rfl
      · rw [work] at runs
        exact if_neg (by simpa [Work.names] using runs)
      · rfl
    rw [none]
    exact .refl stands

theorem quarantineQueue_acts (stands : s.port p = q.refresh) (a : Addr) :
    Acts p s (quarantineQueue p a s) { q with queue := q.queue.filter fun x => x.station != some a }
      ((q.endedQueue a).map fun x => .txnDone x.tag p .stationQuarantined 0 none) ((q.endedQueue a).map Txn.tag) := by
  have same : (s.port p).queue = q.queue := by rw [stands]; rfl
  have closed : Acts p s (s.modPort p fun q => { q with queue := q.queue.filter fun t => t.station != some a })
      { q with queue := q.queue.filter fun x => x.station != some a } [] [] := .modPort (by rw [stands]; rfl)
  unfold quarantineQueue
  rw [same]
  exact closed.after (finishAll_acts closed.port rfl (q.endedQueue a))

theorem quarantineSweep_acts (stands : s.port p = q.refresh) (a : Addr) :
    Acts p s (quarantineSweep p a s) { q with sweep := q.sweep.filter fun w => w.station != a }
      (match q.sweep with
        | some w => if w.station = a then [.sweepDone p a w.range (.abandoned .stationQuarantined) w.map] else []
        | none => []) [] := by
  have same : (s.port p).sweep = q.sweep := by rw [stands]; rfl
  unfold quarantineSweep
  rw [same]
  rcases sweep : q.sweep with _ | w
  · refine (Acts.refl stands).to (congrArg Port.refresh ?_)
    exact congrArg (fun sweep => { q with sweep := sweep }) sweep
  · by_cases mine : w.station = a
    · have abandons : abandonSweep p .stationQuarantined s = endSweep p w (.abandoned .stationQuarantined) s := by
        simp only [abandonSweep, same.trans sweep]
      simp only [if_pos mine, abandons]
      have ends := endSweep_acts stands w (.abandoned .stationQuarantined)
      rw [mine] at ends
      simpa [Option.filter, mine] using ends
    · simp only [if_neg mine]
      refine (Acts.refl stands).to (congrArg Port.refresh ?_)
      have kept : (some w).filter (fun w => w.station != a) = some w := by simp [Option.filter, mine]
      rw [kept, ← sweep]

/-- The port once the queue and the sweep hold nothing of station `a`. -/
def Port.clearedOf (q : Port) (a : Addr) : Port :=
  { q with queue := q.queue.filter fun x => x.station != some a, sweep := q.sweep.filter fun w => w.station != a }

theorem Port.withoutWork_of_runs {q : Port} {a : Addr} (runs : q.runsFor a = true) :
    q.withoutWork = { q with inFlight := none, line := q.line.ended } := by
  refine if_neg fun none => ?_
  rw [Port.runsFor, none] at runs
  cases runs

theorem quarantineEntry_acts (stands : s.port p = q.refresh) (a : Addr) :
    Acts p s (quarantineEntry p a s)
      (if q.runsFor a then Port.nextWork { q.clearedOf a with inFlight := none, line := q.line.ended }
       else q.clearedOf a)
      ((q.endedRun a).toList.map (fun r => .txnDone r.txn.tag p .stationQuarantined r.used none) ++
        ((q.endedQueue a).map (fun x => .txnDone x.tag p .stationQuarantined 0 none) ++
          match q.sweep with
          | some w => if w.station = a then [.sweepDone p a w.range (.abandoned .stationQuarantined) w.map] else []
          | none => [])) (q.quarantineTags a) := by
  have same : (s.port p).runsFor a = q.runsFor a := by rw [stands]; rfl
  have first := quarantineInFlight_acts stands a
  by_cases runs : q.runsFor a = true
  · rw [Port.unrun, if_pos runs, Port.withoutWork_of_runs runs] at first
    have second := quarantineQueue_acts first.port a
    have third := quarantineSweep_acts second.port a
    have all := first.trans (second.trans third)
    rw [List.append_nil] at all
    rw [if_pos runs]
    unfold quarantineEntry
    rw [same, if_pos runs]
    refine all.andThen (.modPort ?_)
    rw [all.port]
    exact Port.nextWork_congr rfl
  · rw [Port.unrun, if_neg runs] at first
    have second := quarantineQueue_acts first.port a
    have third := quarantineSweep_acts second.port a
    have all := first.trans (second.trans third)
    rw [List.append_nil] at all
    rw [if_neg runs]
    unfold quarantineEntry
    rw [same, if_neg runs]
    exact all

/-- The port that the second strike against station `a` leaves (R44, R45). -/
def Port.afterQuarantine (q : Port) (a : Addr) : Port :=
  if q.runsFor a then Port.nextWork { q.quarantined a with inFlight := none, line := (q.quarantined a).line.ended }
  else q.quarantined a

theorem strike_second {e : Station} (stands : m.port p = q.refresh) (found : q.station a = some e)
    (one : e.strikes = 1) :
    Acts p m (strike p a m) (q.afterQuarantine a) (q.quarantineNotices p a) (q.quarantineTags a) := by
  rw [strike_found stands found, if_neg (by omega), if_pos one]
  have struck : Acts p m (m.modPort p fun q => q.modStation a fun e => { e with strikes := 2, state := .quarantined })
      (q.modStation a fun e => { e with strikes := 2, state := .quarantined }) [] [] := .modPort (by rw [stands]; rfl)
  have told := struck.after (.notice struck.port (.stationState p a .quarantined .strike))
  exact told.trans (quarantineEntry_acts told.port a)

theorem Acts.quarantines {after : Port} (h : Acts p s t after (q.quarantineNotices p a) (q.quarantineTags a))
    (room : s.RoomFor (q.quarantineNotices p a).length) : Quarantines s t p q a after :=
  ⟨h.work.unanswered, h.reported room, h.work.trim, h.work.draining, h.live, h.work.others, h.port⟩

/-- Settles O34. -/
theorem secondStrikeQuarantines : Obligations.SecondStrikeQuarantines := by
  intro s p c e late hears inside marked reply outside record other q a found one room
  obtain ⟨m, opened, run⟩ := head_run hears inside marked fun f work => (outside f work).2
  have noWindow : ∀ f, q.inFlight = some f → f.phase ≠ .awaiting := fun f work =>
    (outside f ((Port.headOpened_inFlight ..).symm.trans work)).1
  have sameRecord : q.lateReply = some late := (Port.headOpened_lateReply ..).trans record
  rw [headTaken_outside opened.port _ _ noWindow, reply, outsideHead_late opened.port sameRecord, if_neg other] at run
  exact ⟨_, run, (opened.after (strike_second opened.port found one)).quarantines room⟩

/-! ### Heads in AWAITING -/

theorem headTaken_window {w : Work} (stands : m.port p = q.refresh) (work : q.inFlight = some ⟨.awaiting, w⟩)
    (k : FrameKind) (a : Addr) : headTaken p k a m = windowHead p w k a m := by
  have same : (m.port p).inFlight = some ⟨.awaiting, w⟩ := by rw [stands]; exact work
  simp only [headTaken, same, if_true]

/-- A head in AWAITING that is not the reply head: what is counted first, and then the exchange fails (R70, R89). -/
theorem notTheReply_run {w : Work} {q' : Port} (hears : s.Hears p) (inside : (s.port p).line.receiver = .inCharacter)
    (marked : c.mark = true) (work : (s.port p).inFlight = some ⟨.awaiting, w⟩)
    (notReply : s.NotTheReply p c w.target q') :
    ∃ m, exec (.characterReceived p c) s = .next (failExchange p .badReply m) ∧ Acts p s m q' [] [] ∧
      q'.inFlight = some ⟨.awaiting, w⟩ ∧ q'.sweep = (s.port p).sweep := by
  obtain ⟨m, opened, run⟩ := head_run hears inside marked fun f isF => by
    rw [work] at isF
    cases isF
    nofun
  have work' := (Port.headOpened_inFlight (s.port p) c).trans work
  have sweep' := Port.headOpened_sweep (s.port p) c
  rw [headTaken_window opened.port work'] at run
  rcases notReply with ⟨stray, rfl⟩ | ⟨e, reply, other, found, none, rfl⟩ |
    ⟨e, reply, other, found, two, rfl⟩
  · have counted := opened.after (strayCounted_acts opened.port)
    refine ⟨_, run.trans (congrArg _ ?_), counted, work', sweep'⟩
    by_cases reply : kindOfHead c.data = .reply
    · obtain ⟨other, absent⟩ := stray.resolve_left fun h => h reply
      rw [windowHead, if_neg (by simp [reply]), if_neg other, strike_absent opened.port absent]
    · exact if_pos reply
  · have struck := opened.after (strike_first opened.port found none)
    refine ⟨_, run.trans (congrArg _ ?_), struck, work', sweep'⟩
    rw [windowHead, if_neg (by simp [reply]), if_neg other]
  · refine ⟨_, run.trans (congrArg _ ?_), opened, work', sweep'⟩
    rw [windowHead, if_neg (by simp [reply]), if_neg other, strike_third opened.port found two]

/-- A second strike in AWAITING: the quarantine, which leaves the exchange in flight, and then the exchange fails. -/
theorem secondStrike_run {w : Work} {e : Station} (hears : s.Hears p)
    (inside : (s.port p).line.receiver = .inCharacter) (marked : c.mark = true)
    (work : (s.port p).inFlight = some ⟨.awaiting, w⟩) (reply : kindOfHead c.data = .reply)
    (other : w.target ≠ some (addrOfHead c.data))
    (found : ((s.port p).headOpened c).station (addrOfHead c.data) = some e) (one : e.strikes = 1)
    (room : s.RoomFor ((((s.port p).headOpened c).quarantineNotices p (addrOfHead c.data)).length + 2)) :
    let q := (s.port p).headOpened c
    let a := addrOfHead c.data
    ∃ m, exec (.characterReceived p c) s = .next (failExchange p .badReply m) ∧
      Quarantines s m p q a (q.quarantined a) ∧ m.port p = (q.quarantined a).refresh ∧
      (q.quarantined a).inFlight = some ⟨.awaiting, w⟩ ∧ m.RoomFor 2 := by
  intro q a
  obtain ⟨m, opened, run⟩ := head_run hears inside marked fun f isF => by
    rw [work] at isF
    cases isF
    nofun
  have work' : q.inFlight = some ⟨.awaiting, w⟩ := (Port.headOpened_inFlight (s.port p) c).trans work
  have stays : q.afterQuarantine a = q.quarantined a := by
    refine if_neg ?_
    rw [Port.runsFor, work']
    rcases w with r | r
    · simpa [Work.names, Work.target] using other
    · simpa [Work.names, Work.target] using other
  have struck := opened.after (strike_second opened.port found one)
  rw [stays] at struck
  rw [headTaken_window opened.port work', windowHead, if_neg (by simp [reply]), if_neg other] at run
  have enough : s.RoomFor (q.quarantineNotices p a).length := roomFor_mono (Nat.le_add_right _ 2) room
  exact ⟨_, run, struck.quarantines enough, struck.port, work', (struck.posts (.inr enough)).room room⟩

/-- Settles O35. -/
theorem headsInTheWindowDecideTheExchange : Obligations.HeadsInTheWindowDecideTheExchange := by
  intro s p c w hears inside marked work q a target
  have isTarget : target = w.target := by cases w <;> rfl
  clear_value target
  subst isTarget
  refine ⟨fun reply mine => ?_, fun q' notReply => ⟨fun r isTxn room => ?_, fun r v isProbe sweep room => ?_⟩,
    fun e reply other found one room => ⟨fun r isTxn => ?_, fun r v isProbe sweep => ?_⟩⟩
  · obtain ⟨m, opened, run⟩ := head_run hears inside marked fun f isF => by
      rw [work] at isF
      cases isF
      nofun
    rw [headTaken_window opened.port ((Port.headOpened_inFlight ..).trans work), windowHead, if_neg (by simp [reply]),
      if_pos mine] at run
    have taken : Acts p m (m.modPort p fun q => { q with inFlight := some ⟨.receiving, w⟩ })
        { q with inFlight := some ⟨.receiving, w⟩ } [] [] := .modPort (by rw [opened.port]; rfl)
    exact ⟨_, run, (opened.after taken).quiet, taken.port⟩
  · subst isTxn
    obtain ⟨m, run, acts, work', -⟩ := notTheReply_run hears inside marked work notReply
    exact ⟨_, run, (acts.fails (failExchange_txn acts.port work' .badReply)).failsAttempt room⟩
  · subst isProbe
    obtain ⟨m, run, acts, work', sweep'⟩ := notTheReply_run hears inside marked work notReply
    exact ⟨_, run, (acts.probes (failExchange_probe acts.port work' (sweep'.trans sweep) .badReply)).probeEnds room⟩
  · subst isTxn
    obtain ⟨m, run, quarantines, stands, work', room'⟩ :=
      secondStrike_run hears inside marked work reply other found one room
    exact ⟨m, _, run, quarantines, (failExchange_txn stands work' .badReply).failsAttempt room'⟩
  · subst isProbe
    obtain ⟨m, run, quarantines, stands, work', room'⟩ :=
      secondStrike_run hears inside marked work reply other found one room
    exact ⟨m, _, run, quarantines, (failExchange_probe stands work' sweep .badReply).probeEnds
      fun _ => roomFor_mono (by omega) room'⟩

end

end Sys2Proof.Machine

/-! SUPPORT. The head that interrupts a reply, and O37. The exchange ends first and the port decides; the head then
counts as a stray frame, and nothing that the decision did depends on it. -/

namespace Sys2Proof.Machine

section
variable {p : PortId} {s t u m : State} {q : Port} {c : RxChar}

/-! ### A stray head leaves the choice of work as it was -/

/-- The port with a head taken as a stray frame: its record opened and the frame counted (R8, R93). -/
def Port.strayHead (q : Port) (c : RxChar) : Port := (q.awaiting .count (FrameRec.opened c)).strayCounted

theorem Port.beginIfIdle_strayHead (q : Port) (c : RxChar) :
    (q.strayHead c).beginIfIdle = q.beginIfIdle.strayHead c := by
  have same : (q.strayHead c).inFlight = q.inFlight := rfl
  have idle : (q.strayHead c).lineIdle = q.lineIdle := rfl
  unfold Port.beginIfIdle
  rw [same, idle]
  rcases q.inFlight with _ | f
  · rfl
  · by_cases begins : (f.phase = .waitingIdle ∨ f.phase = .recovering) ∧ q.lineIdle = true
    · simp only [if_pos begins]
      rfl
    · simp only [if_neg begins]

theorem Port.takeHead_strayHead (q : Port) (c : RxChar) : (q.strayHead c).takeHead = q.takeHead.strayHead c := by
  have same : (q.strayHead c).queue = q.queue := rfl
  unfold Port.takeHead
  rw [same]
  rcases q.queue with _ | ⟨x, rest⟩
  · rfl
  · exact Port.beginIfIdle_strayHead { q with
      queue := rest
      inFlight := some ⟨.waitingIdle, .txn ⟨x, q.attemptLimit x, 0, none, none⟩⟩
      sweep := q.sweep.map fun w => { w with last := .transaction } } c

theorem Port.takeProbe_strayHead (q : Port) (w : Sweep) (c : RxChar) :
    (q.strayHead c).takeProbe w = (q.takeProbe w).strayHead c :=
  Port.beginIfIdle_strayHead { q with
    inFlight := some ⟨.waitingIdle, .probe ⟨w.station, w.range, BitVec.ofNat 5 w.next⟩⟩
    sweep := some { w with last := .probe } } c

theorem Port.nextWork_strayHead (q : Port) (c : RxChar) : (q.strayHead c).nextWork = q.nextWork.strayHead c := by
  by_cases decides : q.state.inService = true ∧ q.inFlight = none ∧ q.claim ≠ .window
  · obtain ⟨service, free, closed⟩ := decides
    by_cases granted : q.claim = .granted
    · rw [Port.nextWork_of_granted service free granted,
        Port.nextWork_of_granted (q := q.strayHead c) service free granted]
      rfl
    · rcases sweep : q.sweep with _ | w
      · by_cases empty : q.queue = []
        · rw [Port.nextWork_of_nothing service free closed granted sweep empty,
            Port.nextWork_of_nothing (q := q.strayHead c) service free closed granted sweep empty]
        · rw [Port.nextWork_of_head service free closed granted empty (by simp [sweep]),
            Port.nextWork_of_head (q := q.strayHead c) service free closed granted empty
              (fun w isW => absurd (sweep.symm.trans isW) nofun)]
          exact q.takeHead_strayHead c
      · by_cases turn : w.last = .probe ∧ q.queue ≠ []
        · have last (v : Sweep) (isV : q.sweep = some v) : v.last = .probe := by
            cases sweep.symm.trans isV
            exact turn.1
          rw [Port.nextWork_of_head service free closed granted turn.2 last,
            Port.nextWork_of_head (q := q.strayHead c) service free closed granted turn.2 last]
          exact q.takeHead_strayHead c
        · have probes : w.last = .transaction ∨ q.queue = [] := by
            by_cases empty : q.queue = []
            · exact .inr empty
            · left
              rcases last : w.last with _ | _
              · exact absurd ⟨last, empty⟩ turn
              · rfl
          rw [Port.nextWork_of_sweep service free closed granted sweep probes,
            Port.nextWork_of_sweep (q := q.strayHead c) service free closed granted sweep probes]
          exact q.takeProbe_strayHead w c
  · rw [Port.nextWork_of_not decides, Port.nextWork_of_not (q := q.strayHead c) decides]

/-! ### The work that a decision chooses waits or is being sent -/

/-- No exchange awaits its reply, and no late reply is expected unless one was. -/
def Port.TakesStrays (q : Port) (late : Option Addr) : Prop :=
  (∀ f, q.inFlight = some f → f.phase ≠ .awaiting) ∧ (q.lateReply = late ∨ q.lateReply = none)

theorem Port.beginIfIdle_takesStrays {late : Option Addr} (h : q.TakesStrays late) :
    q.beginIfIdle.TakesStrays late := by
  unfold Port.beginIfIdle
  rcases work : q.inFlight with _ | f
  · exact h
  · by_cases begins : (f.phase = .waitingIdle ∨ f.phase = .recovering) ∧ q.lineIdle = true
    · simp only [if_pos begins]
      exact ⟨by rintro _ ⟨⟩; nofun, .inr rfl⟩
    · simp only [if_neg begins]
      exact h

theorem Port.nextWork_takesStrays {late : Option Addr} (h : q.TakesStrays late) : q.nextWork.TakesStrays late := by
  have head : q.takeHead.TakesStrays late := by
    unfold Port.takeHead
    split
    · exact h
    · exact Port.beginIfIdle_takesStrays ⟨by rintro _ ⟨⟩; nofun, h.2⟩
  unfold Port.nextWork
  split
  · split
    · exact h
    · split
      · split
        · exact head
        · exact Port.beginIfIdle_takesStrays ⟨by rintro _ ⟨⟩; nofun, h.2⟩
      · exact head
  · exact h

/-- A head after a decision, with no late reply expected: a stray frame. -/
theorem openFrame_stray {late : Option Addr} (stands : m.port p = q.refresh) (strays : q.TakesStrays late)
    (stray : kindOfHead c.data ≠ .reply ∨ late = none) : Acts p m (openFrame p c m) (q.strayHead c) [] [] := by
  obtain ⟨n, opened, taken⟩ := openFrame_run stands c
  have noLate : kindOfHead c.data ≠ .reply ∨ q.lateReply = none := by
    rcases stray with other | rfl
    · exact .inl other
    · exact .inr (or_self_iff.1 strays.2)
  rw [taken, headTaken_outside opened.port _ _ strays.1,
    outsideHead_stray opened.port (noLate.imp id fun none => .inl none)]
  exact opened.after (strayCounted_acts opened.port)

/-- So it is after whatever the decision chose for a port with nothing in flight. -/
theorem Acts.thenStrayHead {ns : List Notice} {xs : List Word16} (h : Acts p s t q.nextWork ns xs)
    (free : q.inFlight = none) (stray : kindOfHead c.data ≠ .reply ∨ q.lateReply = none) :
    Acts p s (openFrame p c t) (q.strayHead c).nextWork ns xs := by
  have strays : q.nextWork.TakesStrays q.lateReply :=
    Port.nextWork_takesStrays ⟨fun f work => absurd (free.symm.trans work) nofun, .inl rfl⟩
  rw [Port.nextWork_strayHead]
  exact h.andThen (openFrame_stray h.port strays stray)

theorem Fails.strayHead {r : TxnRun} {cause : FailCause} (h : Fails p s t q r cause)
    (stray : kindOfHead c.data ≠ .reply ∨ q.lateReply = none) :
    Fails p s (openFrame p c t) (q.strayHead c) r cause := by
  refine ⟨fun more => ?_, fun last => (h.2 last).thenStrayHead rfl stray⟩
  obtain ⟨waits, isWaits⟩ : ∃ u : Port, u = { q.failureCounted with
      inFlight := some ⟨if cause = .collided then .recovering else .waitingIdle,
        .txn { r with lastFailure := some cause }⟩
      line := q.line.ended } := ⟨_, rfl⟩
  have acts := h.1 more
  rw [← isWaits] at acts
  have strays : waits.beginIfIdle.TakesStrays q.lateReply := by
    refine Port.beginIfIdle_takesStrays ?_
    rw [isWaits]
    refine ⟨?_, .inl rfl⟩
    rintro _ ⟨⟩
    cases cause <;> nofun
  have begun := acts.andThen (openFrame_stray acts.port strays stray)
  rw [← Port.beginIfIdle_strayHead, isWaits] at begun
  exact begun

theorem Probes.strayHead {w : Sweep} {code : ThCode} {result : PassEntry} (h : Probes p s t q w code result)
    (stray : kindOfHead c.data ≠ .reply ∨ q.lateReply = none) :
    Probes p s (openFrame p c t) (q.strayHead c) w code result :=
  ⟨fun more => (h.1 more).thenStrayHead rfl stray, fun last => (h.2 last).thenStrayHead rfl stray⟩

/-- A head that interrupts a reply: the judgement of the frame that it cuts, and then the head (R10). -/
theorem interruptingHead_run {w : Awaited} {r : FrameRec} (hears : s.Hears p)
    (inside : (s.port p).line.receiver = .inCharacter) (marked : c.mark = true)
    (frame : (s.port p).line.assembler = .assembling w r) :
    ∃ m g, exec (.characterReceived p c) s = .next (openFrame p c (judgeFrame p .interrupted g r m)) ∧
      Acts p s m ((s.port p).headArrived c) [] [] ∧
      ((s.port p).headArrived c).strayHead c = ((s.port p).headOpened c).strayCounted := by
  obtain ⟨m, ended, run⟩ := characterReceived_marked hears inside marked
  have frame' := (Port.charEnded_assembler (s.port p) c).trans frame
  obtain ⟨n, noted, judged⟩ := endFrame_run (.inr ended.port) .interrupted r
  rw [assemble_frame ended.port frame', if_pos marked, judged] at run
  refine ⟨n, _, run, ?_, rfl⟩
  rw [Port.headArrived, frame]
  exact ended.after noted

/-- A cut frame is not clean. -/
theorem FrameRec.clean_interrupted (r : FrameRec) (g : Bool) : r.clean .interrupted g = false := by
  simp [FrameRec.clean]

/-- Settles O37. -/
theorem frameEndJudgesTheReply : Obligations.FrameEndJudgesTheReply := by
  refine ⟨fun s p c q rec good hears stopped ends => ?ends,
    fun s p ch waiting before hears inside marked frame stray => ?cut,
    fun s p ch before r limit hears room stopped inside plain frame work isLimit tooMany most =>
      ?count⟩
  case ends =>
    obtain ⟨m, e, g, late, run, acts, clean, sameWork, sameSweep, notLate, -⟩ := frameEnds_run hears ends
    rw [notLate stopped] at run
    refine ⟨fun r work room => ⟨_, run, fun isGood => ?_, fun isBad => ?_⟩,
      fun r w work sweep room => ⟨_, run, ?_⟩, fun other => ⟨_, run, ?_⟩⟩
    · have decides := judgeFrame_decides acts.port clean (sameWork.trans work)
      exact (acts.after (decides.1 isGood)).completes room
    · have decides := judgeFrame_decides acts.port clean (sameWork.trans work)
      exact (acts.fails (decides.2 isBad)).failsAttempt room
    · have ends := judgeFrame_probes acts.port clean (sameWork.trans work) (sameSweep.trans sweep)
      exact (acts.probes ends).probeEnds room
    · have nothing := judgeFrame_other acts.port e g rec (by rw [sameWork]; exact other)
      rw [show afterCharacter p false (judgeFrame p e g rec m) = judgeFrame p e g rec m from rfl, nothing]
      exact ⟨acts.quiet, acts.port⟩
  case cut =>
    intro q
    obtain ⟨m, g, run, arrived, isQ⟩ := interruptingHead_run hears inside marked frame
    have stray' : kindOfHead ch.data ≠ .reply ∨ ((s.port p).headArrived ch).lateReply = none := by
      rwa [Port.headArrived_lateReply]
    refine ⟨fun r work room => ⟨_, run, ?_⟩, fun r w work sweep room => ⟨_, run, ?_⟩⟩
    · have decides := judgeFrame_decides arrived.port (before.clean_interrupted g)
        ((Port.headArrived_inFlight ..).trans work)
      have fails := (arrived.fails (decides.2 rfl)).strayHead stray'
      rw [isQ] at fails
      exact fails.failsAttempt room
    · have ends := judgeFrame_probes arrived.port (before.clean_interrupted g)
        ((Port.headArrived_inFlight ..).trans work) ((Port.headArrived_sweep ..).trans sweep)
      have probes := (arrived.probes ends).strayHead stray'
      rw [isQ] at probes
      exact probes.probeEnds room
  case count =>
    intro ended
    obtain ⟨m, acts, run⟩ := characterReceived_unmarked hears inside plain
    have frame' := (Port.charEnded_assembler (s.port p) ch).trans frame
    have notNone : ch.data ≠ 0 := by
      rintro isZero
      rw [isZero] at tooMany
      exact Nat.not_lt_zero _ tooMany
    have grown : (before.note ch).grown .count ch.data =
        some (.payload, { before.note ch with count := some ch.data }) := by
      simp only [FrameRec.grown, if_pos most, if_neg notNone]
    have added := acts.after (setAssembler_acts acts.port .payload { before.note ch with count := some ch.data })
    have fails := countTaken_over added.port ((Port.charEnded_inFlight ..).trans work) isLimit tooMany
    rw [stopped, assemble_frame acts.port frame', plain, if_neg (by decide), addCharacter_grown grown, if_pos rfl,
      fails] at run
    exact ⟨_, run, (added.fails (failAttempt_fails added.port r .badReply)).failsAttempt room⟩

end

end Sys2Proof.Machine

/-! SUPPORT. A whole reply, character by character: O36. Between two characters the port stands in one of a row of
stages, which differ only in what the assembler has. -/

namespace Sys2Proof.Machine

section
variable {p : PortId} {s t u m : State} {q : Port} {r : TxnRun} {a : Addr} {payload : List Byte}

theorem headByte_reply (a : Addr) : kindOfHead (headByte .reply a) = .reply ∧ addrOfHead (headByte .reply a) = a := by
  revert a
  decide

/-- A clean character of a frame. -/
def cleanChar (data : Byte) (mark : Bool) : RxChar := ⟨data, mark, false, false⟩

/-- The port between two characters of the reply: the exchange in RECEIVING, and the assembler as it stands. -/
def Port.stage (q : Port) (r : TxnRun) (w : Awaited) (rec : FrameRec) : Port :=
  { q.sampled with
    inFlight := some ⟨.receiving, .txn r⟩
    line := { q.sampled.line with
      receiver := .hunting, assembler := .assembling w rec, lastSample := some .rest, gapRunning := true
      reply := .stopped } }

theorem Port.charEnded_refresh (q : Port) (c : RxChar) : (q.refresh.charEnded c).refresh = (q.charEnded c).refresh := by
  unfold Port.charEnded
  rcases c.framing <;> rfl

/-- A character between two others: its start bit, its end, and the assembler. -/
theorem character_run (hears : s.Hears p) (hunts : (s.port p).line.receiver = .hunting)
    (still : (s.port p).line.driver ≠ .driving) (idle : (s.port p).line.turnaround = none) (c : RxChar)
    (inTime : (((s.port p).startTaken false).line.reply.overdue && !c.mark) = false) :
    ∃ m, Acts p s m (((s.port p).startTaken false).charEnded c) [] [] ∧
      exec (.characterReceived p c) s = .next (assemble p c m) := by
  have taken := takeStart_acts p false s
  obtain ⟨m, ended, run⟩ := takeCharacter_run (p := p) c (s.modPort p fun q => q.takeStart false)
  have overdue : ((s.modPort p fun q => q.takeStart false).port p).line.reply =
      ((s.port p).startTaken false).line.reply := by
    rw [taken.port]
    rfl
  rw [overdue, if_neg (by simp [inTime])] at run
  refine ⟨m, taken.after (ended.to ?_), ?_⟩
  · rw [taken.port]
    exact Port.charEnded_refresh _ c
  · rw [exec_characterReceived_hunting hears hunts still, startBit_quiet idle, run]

/-- A start bit taken between two characters of the reply. -/
theorem Port.stage_startTaken (q : Port) (r : TxnRun) (w : Awaited) (rec : FrameRec) :
    (q.stage r w rec).startTaken false = { q.stage r w rec with line := { (q.stage r w rec).line with
      receiver := .inCharacter, gapRunning := false, restCount := 0, lastSample := some .active } } := by
  simp [Port.startTaken, Port.stage, Port.sampled]

theorem Port.stage_charEnded (q : Port) (r : TxnRun) (w : Awaited) (rec : FrameRec) (b : Byte) :
    ((q.stage r w rec).startTaken false).charEnded (cleanChar b false) =
      { q.stage r w rec with line := { (q.stage r w rec).line with gapRunning := false } } := by
  rw [Port.stage_startTaken]
  rfl

/-- The head's character ended, whatever the reply timer had. -/
theorem Port.headEnded (q : Port) (r : TxnRun) (b : Byte) (rec : FrameRec) :
    { ((q.startTaken false).charEnded (cleanChar b true)).awaiting .count rec with
      inFlight := some ⟨.receiving, .txn r⟩ } = q.stage r .count rec := by
  rcases reply : q.line.reply with _ | n | ⟨n, l⟩
  all_goals
    simp only [Port.startTaken, reply]
    rfl

theorem FrameRec.note_clean (rec : FrameRec) (b : Byte) (mark : Bool) : rec.note (cleanChar b mark) = rec := by
  simp [FrameRec.note, cleanChar]

/-- Port `p` stands at a stage of the reply: what the next character needs. -/
structure AtStage (p : PortId) (s t : State) (q : Port) (r : TxnRun) (w : Awaited) (rec : FrameRec) : Prop where
  hears : t.Hears p
  acts : Acts p s t (q.stage r w rec) [] []
  still : q.line.driver ≠ .driving
  idle : q.line.turnaround = none

theorem AtStage.of_acts {w w' : Awaited} {rec rec' : FrameRec} (h : AtStage p s t q r w rec)
    (acts : Acts p t u (q.stage r w' rec') [] []) : AtStage p s u q r w' rec' where
  hears := ⟨acts.work.power.trans h.hears.1, by rw [acts.port]; nofun⟩
  acts := h.acts.after acts
  still := h.still
  idle := h.idle

/-- The character after a stage, before the assembler takes it. -/
theorem AtStage.character {w : Awaited} {rec : FrameRec} (h : AtStage p s t q r w rec) (b : Byte) :
    ∃ m, Acts p t m { q.stage r w rec with line := { (q.stage r w rec).line with gapRunning := false } } [] [] ∧
      exec (.characterReceived p (cleanChar b false)) t = .next (addCharacter p w rec b m) := by
  have port := h.acts.port
  obtain ⟨m, ended, run⟩ := character_run h.hears (by rw [port]; rfl) (by rw [port]; exact h.still)
    (by rw [port]; exact h.idle) (cleanChar b false) (by rw [port]; rfl)
  have same : (((t.port p).startTaken false).charEnded (cleanChar b false)).refresh =
      Port.refresh { q.stage r w rec with line := { (q.stage r w rec).line with gapRunning := false } } := by
    rw [← Port.stage_charEnded q r w rec b, port, ← Port.charEnded_refresh,
      ← Port.charEnded_refresh (q := Port.startTaken _ _)]
    rfl
  have acts := ended.to same
  rw [assemble_frame acts.port rfl, if_neg (show ¬ (cleanChar b false).mark = true from Bool.false_ne_true),
    FrameRec.note_clean] at run
  exact ⟨m, acts, run⟩

/-- A character that is added takes the port to the next stage. -/
theorem AtStage.added {w w' : Awaited} {rec rec' : FrameRec} (h : AtStage p s t q r w rec) {b : Byte}
    (grown : rec.grown w b = some (w', rec'))
    (allowed : w = .count → ∃ limit, r.txn.replyLimit = some limit ∧ b.toNat ≤ limit) :
    ∃ u, exec (.characterReceived p (cleanChar b false)) t = .next u ∧ AtStage p s u q r w' rec' := by
  obtain ⟨m, acts, run⟩ := h.character b
  have added := acts.after (setAssembler_acts acts.port w' rec')
  have counts : addCharacter p w rec b m = m.modPort p fun q => q.setAssembler (.assembling w' rec') := by
    rw [addCharacter_grown grown]
    split
    · next isCount =>
      refine countTaken_allowed added.port ?_
      rintro _ ⟨⟩
      exact allowed isCount
    · rfl
  rw [counts] at run
  exact ⟨_, run, h.of_acts added⟩

theorem runAll_append {xs ys : List Instr} (run : runAll xs s = .next t) : runAll (xs ++ ys) s = runAll ys t := by
  induction xs generalizing s with
  | nil =>
    cases run
    rfl
  | cons x xs ih =>
    obtain ⟨m, step⟩ := exec_next x s
    rw [runAll_cons step] at run
    rw [List.cons_append, runAll_cons step, ih run]

/-! ### The characters in turn -/

/-- The record of a reply of station `a` with its COUNT and the payload so far. -/
def replyRec (a : Addr) (count : Option Byte) (taken : List Byte) : FrameRec :=
  { addr := a, kind := .reply, count := count, payload := taken, checkLo := none, checkHi := none, framing := false
    noisy := 0 }

theorem opened_reply (a : Addr) : FrameRec.opened (cleanChar (headByte .reply a) true) = replyRec a none [] := by
  obtain ⟨kind, addr⟩ := headByte_reply a
  simp only [FrameRec.opened, cleanChar, kind, addr]
  rfl

/-- The head takes an exchange in AWAITING to its first stage. -/
theorem replyHead_stage (hears : s.Hears p) (hunts : (s.port p).line.receiver = .hunting)
    (still : (s.port p).line.driver ≠ .driving) (idle : (s.port p).line.turnaround = none)
    (hunt : (s.port p).line.assembler = .hunt) (work : (s.port p).inFlight = some ⟨.awaiting, .txn r⟩)
    (station : r.txn.station = some a) :
    ∃ t, exec (.characterReceived p (cleanChar (headByte .reply a) true)) s = .next t ∧
      AtStage p s t (s.port p) r .count (replyRec a none []) := by
  obtain ⟨kind, addr⟩ := headByte_reply a
  obtain ⟨m, ended, run⟩ := character_run hears hunts still idle (cleanChar (headByte .reply a) true)
    (by simp [cleanChar])
  obtain ⟨n, opened, taken⟩ := openFrame_run ended.port (cleanChar (headByte .reply a) true)
  have hunt' : (((s.port p).startTaken false).charEnded (cleanChar (headByte .reply a) true)).line.assembler = .hunt :=
    (Port.charEnded_assembler ..).trans hunt
  have work' : ((((s.port p).startTaken false).charEnded (cleanChar (headByte .reply a) true)).awaiting .count
      (FrameRec.opened (cleanChar (headByte .reply a) true))).inFlight = some ⟨.awaiting, .txn r⟩ :=
    (Port.charEnded_inFlight ..).trans work
  have window : headTaken p (kindOfHead (cleanChar (headByte .reply a) true).data)
      (addrOfHead (cleanChar (headByte .reply a) true).data) n =
        n.modPort p fun q => { q with inFlight := some ⟨.receiving, .txn r⟩ } := by
    rw [headTaken_window opened.port work', show (cleanChar (headByte .reply a) true).data = headByte .reply a from rfl,
      kind, addr, windowHead, if_neg (by decide), if_pos (show Work.target (.txn r) = some a from station)]
  rw [assemble_hunt ended.port hunt', if_pos (show (cleanChar (headByte .reply a) true).mark = true from rfl), taken,
    window] at run
  have received : Acts p n (n.modPort p fun q => { q with inFlight := some ⟨.receiving, .txn r⟩ })
      ((s.port p).stage r .count (replyRec a none [])) [] [] := by
    refine .modPort ?_
    rw [opened.port, ← Port.headEnded _ _ (headByte .reply a), ← opened_reply]
    rfl
  have acts := (ended.after opened).after received
  exact ⟨_, run, ⟨acts.work.power.trans hears.1, by rw [acts.port]; nofun⟩, acts, still, idle⟩

/-- What the assembler awaits with `taken` bytes of the payload (R9). -/
def awaitedAfter (payload taken : List Byte) : Awaited := if taken.length = payload.length then .checkLow else .payload

/-- COUNT is taken within the reply limit. -/
theorem AtStage.count {limit : Nat} (h : AtStage p s t q r .count (replyRec a none []))
    (isLimit : r.txn.replyLimit = some limit) (fits : payload.length ≤ limit) (most : limit ≤ 48) :
    ∃ u, exec (.characterReceived p (cleanChar (BitVec.ofNat 8 payload.length) false)) t = .next u ∧
      AtStage p s u q r (awaitedAfter payload []) (replyRec a (some (BitVec.ofNat 8 payload.length)) []) := by
  have toNat : (BitVec.ofNat 8 payload.length).toNat = payload.length := by
    rw [BitVec.toNat_ofNat]
    omega
  refine h.added ?_ fun _ => ⟨limit, isLimit, by omega⟩
  have isZero : BitVec.ofNat 8 payload.length = 0 ↔ ([] : List Byte).length = payload.length := by
    rw [← BitVec.toNat_inj, toNat, eq_comm]
    rfl
  rw [FrameRec.grown, if_pos (by omega)]
  simp only [isZero, awaitedAfter]
  rfl

/-- The payload's bytes, from `taken` on. -/
theorem AtStage.bytes {w : Awaited} {taken : List Byte} (rest : List Byte) (whole : taken ++ rest = payload)
    (small : payload.length ≤ 48) (isW : w = awaitedAfter payload taken)
    (h : AtStage p s t q r w (replyRec a (some (BitVec.ofNat 8 payload.length)) taken)) :
    ∃ u, runAll (rest.map fun b => .characterReceived p (cleanChar b false)) t = .next u ∧
      AtStage p s u q r .checkLow (replyRec a (some (BitVec.ofNat 8 payload.length)) payload) := by
  have toNat : (BitVec.ofNat 8 payload.length).toNat = payload.length := by
    rw [BitVec.toNat_ofNat]
    omega
  induction rest generalizing t taken w with
  | nil =>
    rw [List.append_nil] at whole
    subst whole
    rw [isW, awaitedAfter, if_pos rfl] at h
    exact ⟨t, rfl, h⟩
  | cons b rest ih =>
    have more : taken.length ≠ payload.length := by
      rw [← whole, List.length_append, List.length_cons]
      omega
    rw [isW, awaitedAfter, if_neg more] at h
    have grown : (replyRec a (some (BitVec.ofNat 8 payload.length)) taken).grown .payload b =
        some (awaitedAfter payload (taken ++ [b]),
          replyRec a (some (BitVec.ofNat 8 payload.length)) (taken ++ [b])) := by
      have last : ((some (BitVec.ofNat 8 payload.length)).map BitVec.toNat = some (taken.length + 1)) ↔
          (taken ++ [b]).length = payload.length := by
        rw [Option.map_some, toNat, Option.some.injEq, List.length_append, List.length_singleton, eq_comm]
      simp only [FrameRec.grown, replyRec, last, awaitedAfter]
    obtain ⟨u, step, next⟩ := h.added grown nofun
    obtain ⟨v, run, done⟩ := ih (by simpa using whole) rfl next
    exact ⟨v, by rw [List.map_cons, runAll_cons step, run], done⟩

/-- The check characters of a reply make it a whole and clean one. -/
theorem replyRec_clean (a : Addr) (n : Byte) (payload : List Byte) :
    let check := checkOf (headByte .reply a :: n :: payload)
    let rec' := { replyRec a (some n) payload with checkLo := some (lowByte check), checkHi := some (highByte check) }
    rec'.clean .complete (decide (Ending.complete = .complete) && rec'.checkGood) = true := by
  intro check rec'
  have good : rec'.checkGood = true := (FrameRec.checkGood_iff rfl rfl rfl).2 ((eq_word_iff ..).2 ⟨rfl, rfl⟩)
  rw [FrameRec.clean, good]
  rfl

/-- A frame with no noisy character charges nothing. -/
theorem satAdd_zero (c : Word16) : satAdd c 0 = c := by
  rw [satAdd, ← BitVec.toNat_inj, BitVec.toNat_ofNat]
  have := c.isLt
  omega

theorem Port.frameEnded_quiet (q : Port) (rec : FrameRec) (quiet : rec.noisy = 0) :
    q.frameEnded rec = { q with line := { q.line with assembler := .hunt, gapRunning := false } } := by
  have same : (if rec.kind = .reply then q.stations.map fun e =>
      if e.addr = rec.addr then { e with noisy := satAdd e.noisy rec.noisy } else e else q.stations) = q.stations := by
    split
    · conv_rhs => rw [← List.map_id q.stations]
      refine List.map_congr_left fun e _ => ?_
      rw [quiet, satAdd_zero]
      exact ite_self _
    · rfl
  rw [Port.frameEnded, same]

/-- The port once the whole reply has been heard, but for its exchange. -/
def Port.replyHeard (q : Port) : Port :=
  { q.sampled with line := { q.sampled.line with
      receiver := .hunting, assembler := .hunt, lastSample := some .rest, gapRunning := false } }

/-- The last check character completes the transaction. -/
theorem AtStage.last {n : Byte} {low high : Byte} (h : AtStage p s t q r .checkHigh
      { replyRec a (some n) payload with checkLo := some low })
    (isLow : low = lowByte (checkOf (headByte .reply a :: n :: payload)))
    (isHigh : high = highByte (checkOf (headByte .reply a :: n :: payload))) :
    ∃ u, exec (.characterReceived p (cleanChar high false)) t = .next u ∧
      Acts p s u (Port.nextWork (q.replyHeard.afterCompletion r.txn .done))
        (q.replyHeard.completionNotices p r.txn .done r.used (some payload)) [r.txn.tag] := by
  subst isLow
  subst isHigh
  obtain ⟨m, acts, run⟩ := h.character (highByte (checkOf (headByte .reply a :: n :: payload)))
  obtain ⟨v, noted, judged⟩ := endFrame_run (.inr acts.port) .complete
    { replyRec a (some n) payload with
      checkLo := some (lowByte (checkOf (headByte .reply a :: n :: payload)))
      checkHi := some (highByte (checkOf (headByte .reply a :: n :: payload))) }
  rw [addCharacter_checkHigh, judged] at run
  have decides := (judgeFrame_decides noted.port (replyRec_clean a n payload) rfl).1 rfl
  rw [Port.frameEnded_quiet _ _ rfl] at decides
  exact ⟨_, run, ((h.acts.after acts).after noted).after decides⟩

/-- Settles O36, stage by stage. -/
theorem goodReplyCompletesDone : Obligations.GoodReplyCompletesDone := by
  intro s p r a limit payload hears room hunts still idle hunt work station isLimit fits most
  obtain ⟨s₁, head, atCount⟩ := replyHead_stage hears hunts still idle hunt work station
  obtain ⟨s₂, count, atPayload⟩ := atCount.count isLimit fits most
  obtain ⟨s₃, bytes, atLow⟩ :=
    atPayload.bytes (payload := payload) (taken := []) payload rfl (fits.trans most) rfl
  obtain ⟨s₄, low, atHigh⟩ := atLow.added
    (b := lowByte (checkOf (headByte .reply a :: BitVec.ofNat 8 payload.length :: payload))) rfl nofun
  obtain ⟨t, high, done⟩ := atHigh.last rfl rfl
  refine ⟨t, ?_, done.completes room⟩
  have frame : ((frameChars .reply a payload).map fun ch =>
        Instr.characterReceived p ⟨ch.data, ch.mark, false, false⟩) =
      .characterReceived p (cleanChar (headByte .reply a) true) ::
        .characterReceived p (cleanChar (BitVec.ofNat 8 payload.length) false) ::
          ((payload.map fun b => .characterReceived p (cleanChar b false)) ++
            [.characterReceived p (cleanChar (lowByte (checkOf (headByte .reply a :: BitVec.ofNat 8 payload.length ::
                payload))) false),
             .characterReceived p (cleanChar (highByte (checkOf (headByte .reply a :: BitVec.ofNat 8 payload.length ::
                payload))) false)]) := by
    simp [frameChars, cleanChar]
  rw [frame, runAll_cons head, runAll_cons count, runAll_append bytes, runAll_cons low, runAll_cons high]
  rfl

end

end Sys2Proof.Machine

/-! SUPPORT. The choice of a sweep: O44. -/

namespace Sys2Proof.Machine

/-! ### The longest run of passing codes -/

/-- `run` is a stretch of passing codes of `map` that starts at `start`. -/
def PassRun (map : List PassEntry) (start width : Nat) : Prop :=
  ∀ i, start ≤ i → i < start + width → map[i]? = some .pass

/-- What the search knows once it has seen the first `code` codes of `map`: the last `run` of them pass, and no more
than these; `best` is the longest run so far, of equal ones the first. -/
structure Searched (map : List PassEntry) (code run : Nat) (best : SweepWindow) : Prop where
  current : run ≤ code ∧ PassRun map (code - run) run
  maximal : ∀ start width, 1 ≤ width → start + width = code → PassRun map start width → width ≤ run
  passes : PassRun map best.start best.width
  inside : best.start + best.width ≤ code
  longest : ∀ start width, 1 ≤ width → start + width ≤ code → PassRun map start width →
    width ≤ best.width ∧ (width = best.width → best.start ≤ start)

theorem Searched.start (map : List PassEntry) : Searched map 0 0 ⟨0, 0⟩ where
  current := ⟨Nat.le_refl 0, fun i _ small => absurd small (by simp)⟩
  maximal start width some whole _ := by omega
  passes i _ small := absurd small (by simp)
  inside := Nat.le_refl 0
  longest start width some whole _ := by omega

/-- A run that ends before the last code seen, cut by it or not. -/
theorem PassRun.mono {map : List PassEntry} {start width w : Nat} (h : PassRun map start width)
    (shorter : w ≤ width) : PassRun map start w := fun i least most => h i least (by omega)

/-- One more passing code. -/
theorem Searched.pass {map : List PassEntry} {code run : Nat} {best : SweepWindow} (h : Searched map code run best)
    (passes : map[code]? = some .pass) :
    Searched map (code + 1) (run + 1) (if best.width < run + 1 then ⟨code - run, run + 1⟩ else best) := by
  obtain ⟨small, current⟩ := h.current
  have now : PassRun map (code - run) (run + 1) := fun i least most => by
    by_cases last : i = code
    · rw [last, passes]
    · exact current i least (by omega)
  have most (start width : Nat) (some : 1 ≤ width) (whole : start + width = code + 1)
      (runs : PassRun map start width) : width ≤ run + 1 := by
    by_cases single : width = 1
    · omega
    · have := h.maximal start (width - 1) (by omega) (by omega) (runs.mono (by omega))
      omega
  have upTo (start width : Nat) (some : 1 ≤ width) (whole : start + width ≤ code + 1)
      (runs : PassRun map start width) : (start + width = code + 1 ∧ width ≤ run + 1) ∨
        (width ≤ best.width ∧ (width = best.width → best.start ≤ start)) := by
    by_cases ends : start + width = code + 1
    · exact .inl ⟨ends, most start width some ends runs⟩
    · exact .inr (h.longest start width some (by omega) runs)
  have inside := h.inside
  split
  · next longer =>
    refine ⟨⟨by omega, ?_⟩, most, now, by simp only; omega, fun start width some whole runs => ?_⟩
    · rwa [show code + 1 - (run + 1) = code - run by omega]
    · simp only
      rcases upTo start width some whole runs with ⟨ends, within⟩ | ⟨within, first⟩
      · omega
      · omega
  · next notLonger =>
    refine ⟨⟨by omega, ?_⟩, most, h.passes, by omega, fun start width some whole runs => ?_⟩
    · rwa [show code + 1 - (run + 1) = code - run by omega]
    · rcases upTo start width some whole runs with ⟨ends, within⟩ | known
      · omega
      · exact known

/-- One more code that does not pass. -/
theorem Searched.other {map : List PassEntry} {code run : Nat} {best : SweepWindow} (h : Searched map code run best)
    {e : PassEntry} (isE : map[code]? = some e) (fails : e ≠ .pass) : Searched map (code + 1) 0 best := by
  have cut (start width : Nat) (some : 1 ≤ width) (whole : start + width = code + 1)
      (runs : PassRun map start width) : False :=
    fails (Option.some.inj (isE.symm.trans (runs code (by omega) (by omega))))
  have inside := h.inside
  refine ⟨⟨Nat.zero_le _, fun i least most => by omega⟩,
    fun start width some whole runs => (cut start width some whole runs).elim, h.passes, by omega,
    fun start width some whole runs => ?_⟩
  by_cases ends : start + width = code + 1
  · exact (cut start width some ends runs).elim
  · exact h.longest start width some (by omega) runs

theorem Searched.longestRun {map : List PassEntry} (rest : List PassEntry) {code run : Nat} {best : SweepWindow}
    (here : map.drop code = rest) (h : Searched map code run best) :
    ∃ code' run', map.length ≤ code' ∧ Searched map code' run' (longestRun rest code run best) := by
  induction rest generalizing code run best with
  | nil => exact ⟨code, run, List.drop_eq_nil_iff.1 here, h⟩
  | cons e rest ih =>
    have isE : map[code]? = some e := by
      have first := congrArg (fun l => l[0]?) here
      simpa using first
    have tail : map.drop (code + 1) = rest := by
      rw [← List.drop_drop, here]
      rfl
    by_cases passes : e = .pass
    · rw [Machine.longestRun, if_pos passes]
      exact ih tail (h.pass (passes ▸ isE))
    · rw [Machine.longestRun, if_neg passes]
      exact ih tail (h.other isE passes)

/-- The first part of O44. -/
theorem chooseRun_longest (map : List PassEntry) :
    PassRun map (chooseRun map).start (chooseRun map).width ∧
    ∀ start width, 1 ≤ width → PassRun map start width →
      width ≤ (chooseRun map).width ∧ (width = (chooseRun map).width → (chooseRun map).start ≤ start) := by
  obtain ⟨code, run, all, searched⟩ := Searched.longestRun map rfl (.start map)
  refine ⟨searched.passes, fun start width some runs => searched.longest start width some ?_ runs⟩
  have last := runs (start + width - 1) (by omega) (by omega)
  have := (List.getElem?_eq_some_iff.1 last).1
  omega

/-! ### The events that give the last probe its result -/

section
variable {p : PortId} {s t m : State} {q : Port} {w : Sweep} {code : ThCode} {result : PassEntry}

/-- How the complete sweep chooses, as the statement says it. -/
abbrev Chooses (m t : State) (p : PortId) (q : Port) (w : Sweep) (code : ThCode) (result : PassEntry) : Prop :=
  let map := w.map.set code.toNat result
  let run := chooseRun map
  let middle := run.start + (run.width - 1) / 2
  let ended : Port := { q with inFlight := none, sweep := none, line := q.line.ended }
  Unanswered m t ∧ OnlyPort m t p ∧
    (3 ≤ run.width →
      Reported m t [.sweepDone p w.station w.range (.done middle run.start run.width) map] ∧
      t.port p = Port.refresh (Port.nextWork { ended with
        stations := ended.stations.map fun e =>
          if e.addr = w.station then
            { e with threshold := ⟨w.range, BitVec.ofNat 5 middle⟩, origin := .swept, lastWindow := some run }
          else e })) ∧
    (run.width < 3 →
      Reported m t [.sweepDone p w.station w.range (.noWindow (if run.width = 0 then none else some run)) map] ∧
      t.port p = Port.refresh (Port.nextWork ended))

theorem Probes.chooses (h : Probes p s t q w code result) (last : w.next = 31) (room : s.RoomFor 1) :
    Chooses s t p q w code result := by
  have acts := h.2 last
  have reported := acts.reported room
  have port := acts.port
  refine ⟨acts.work.unanswered, acts.onlyPort, fun wide => ?_, fun narrow => ?_⟩
  · have wide' : 3 ≤ (chooseRun (w.tried code result).map).width := wide
    rw [Sweep.result, if_pos wide'] at reported
    rw [Sweep.write, if_pos wide'] at port
    exact ⟨reported, port⟩
  · have narrow' : ¬ 3 ≤ (chooseRun (w.tried code result).map).width := Nat.not_le.2 narrow
    rw [Sweep.result, if_neg narrow'] at reported
    rw [Sweep.write, if_neg narrow'] at port
    exact ⟨reported, port⟩

/-- A collision short of the fault (R66, R86). -/
theorem collision_run {wk : Work} (hears : s.Hears p) (work : (s.port p).inFlight = some ⟨.sending, wk⟩)
    (drives : (s.port p).line.driver = .driving) (short : (s.port p).collisionRun < 7) :
    ∃ m, exec (.collision p) s = .next (failExchange p .collided m) ∧ Acts p s m { s.port p with
      counters := { (s.port p).counters with collisions := satInc (s.port p).counters.collisions }
      collisionRun := (s.port p).collisionRun + 1
      line := { (s.port p).line with driver := .released, sending := [], receiver := .waitRest } } [] [] := by
  have counted := countCollision_acts (p := p) (s := s) (by omega)
  have sameRun : ((s.modPort p Port.countCollision).port p).collisionRun = (s.port p).collisionRun + 1 := by
    rw [counted.port]
    rfl
  refine ⟨_, (exec_collision hears work drives).trans (congrArg _ (if_neg ?_)), counted⟩
  rw [sameRun]
  exact Nat.ne_of_lt (Nat.succ_lt_succ short)

/-- Settles O44. -/
theorem sweepChoosesTheLongestRun : Obligations.SweepChoosesTheLongestRun := by
  refine ⟨chooseRun_longest, fun s p c ph r w hears work last => ⟨fun q result room sweep event => ?_,
    fun ch e => ?_⟩⟩
  · suffices ∃ t, exec c s = .next t ∧ Probes p s t q w r.code result by
      obtain ⟨t, run, probes⟩ := this
      exact ⟨t, run, probes.chooses last room⟩
    rcases event with ⟨n, before, rfl, runs, isAt, rfl, rfl⟩ | ⟨ch, taken, n, rfl, rfl, held, takes, rfl, rfl⟩ |
      ⟨isStart, hunts, still, turns, stopped, rfl, rfl⟩ | ⟨ch, rfl, rfl, inside, marked, rfl, notReply⟩ |
      ⟨ch, waiting, before, rfl, rfl, inside, marked, frame, stray, rfl, rfl⟩ |
      ⟨rfl, rfl, drives, short, rfl, rfl⟩ | ⟨rec, good, rfl, stopped, ends, rfl⟩
    · obtain ⟨m, run, late, sameWork, sameSweep, -⟩ := replyTimeout_atTimeout hears runs work isAt
      exact ⟨_, run, late.probes (failExchange_probe late.port sameWork (sameSweep.trans sweep) .noReply)⟩
    · obtain ⟨m, run, late, sameWork, sameSweep⟩ := overdueCharacter_run hears takes held work
      exact ⟨_, run, late.probes (failExchange_probe late.port sameWork (sameSweep.trans sweep) .noReply)⟩
    · obtain ⟨m, run, taken⟩ := startInTurnaround_run hears isStart hunts still turns stopped
      exact ⟨_, run, taken.probes (failExchange_probe taken.port work sweep .badReply)⟩
    · obtain ⟨m, run, acts, sameWork, sameSweep⟩ := notTheReply_run hears inside marked work notReply
      exact ⟨_, run, acts.probes (failExchange_probe acts.port sameWork (sameSweep.trans sweep) .badReply)⟩
    · obtain ⟨m, g, run, arrived, isQ⟩ := interruptingHead_run hears inside marked frame
      have ends := judgeFrame_probes arrived.port (before.clean_interrupted g)
        ((Port.headArrived_inFlight ..).trans work) ((Port.headArrived_sweep ..).trans sweep)
      have probes := (arrived.probes ends).strayHead (by rwa [Port.headArrived_lateReply])
      rw [isQ] at probes
      exact ⟨_, run, probes⟩
    · obtain ⟨m, run, counted⟩ := collision_run hears work drives short
      exact ⟨_, run, counted.probes (failExchange_probe counted.port work sweep .collided)⟩
    · obtain ⟨m, e, g, late, run, acts, clean, sameWork, sameSweep, notLate, -⟩ := frameEnds_run hears ends
      rw [notLate stopped] at run
      exact ⟨_, run, acts.probes (judgeFrame_probes acts.port clean (sameWork.trans work) (sameSweep.trans sweep))⟩
  · intro q a isChar awaits inside marked reply other found one sweep room
    subst isChar
    subst awaits
    obtain ⟨m, run, quarantines, stands, sameWork, room'⟩ := secondStrike_run hears inside marked work reply
      (fun same => other (Option.some.inj same)) found one room
    have probes := failExchange_probe stands sameWork sweep .badReply
    exact ⟨m, _, run, quarantines, probes.chooses last (roomFor_mono (by omega) room')⟩

end

end Sys2Proof.Machine

/-! SUPPORT. The end of a window at its port: O53. -/

namespace Sys2Proof.Machine

section
variable {p : PortId} {s t m : State} {q : Port} {o : WindowOutcome} {k : CalKind} {changed : Bool}

/-! ### The four steps of R126 -/

/-- The moves of R26, but for the fault. -/
theorem windowMoves_outcomeMove {st st' : PortState} {cause : Option TransCause}
    (move : (st, o, st', cause) ∈ windowMoves) :
    st.outcomeMove o = cause.map (fun tc => (st', tc)) ∧ (cause = none → st' = st) ∧ st'.inService = true ∧
      o ≠ .spoiled := by
  simp only [windowMoves, List.mem_cons, List.not_mem_nil, or_false, Prod.mk.injEq] at move
  rcases move with ⟨rfl, rfl, rfl, rfl⟩ | ⟨rfl, rfl, rfl, rfl⟩ | ⟨rfl, rfl, rfl, rfl⟩ |
    ⟨rfl, rfl, rfl, rfl⟩ | ⟨rfl, rfl, rfl, rfl⟩ | ⟨rfl, rfl, rfl, rfl⟩ | ⟨rfl, rfl, rfl, rfl⟩ |
    ⟨rfl, rfl, rfl, rfl⟩ | ⟨rfl, rfl, rfl, rfl⟩ | ⟨rfl, rfl, rfl, rfl⟩ | ⟨rfl, rfl, rfl, rfl⟩
  all_goals exact ⟨rfl, by simp, rfl, nofun⟩

theorem moveTo_acts (stands : m.port p = q.refresh) (st : PortState) (tc : TransCause) :
    Acts p m (moveTo p st tc m) { q with state := st, timer := q.timer.inState st } [.portState p st tc] [] := by
  have moved : Acts p m (m.modPort p fun q => { q with state := st, timer := q.timer.inState st })
      { q with state := st, timer := q.timer.inState st } [] [] := .modPort (by rw [stands]; rfl)
  exact moved.after (.notice moved.port _)

theorem tellSweep_acts (stands : m.port p = q.refresh) :
    Acts p m (tellSweep p m) { q with sweep := sweepAfterChange q.sweep } (changeNotices p q.sweep) [] := by
  have same : (m.port p).sweep = q.sweep := by rw [stands]; rfl
  unfold tellSweep sweepAfterChange changeNotices
  rw [same]
  rcases sweep : q.sweep with _ | w
  · exact (Acts.refl stands).to (congrArg Port.refresh (congrArg (fun sweep => { q with sweep := sweep }) sweep))
  · by_cases more : w.restarts < 2
    · simp only [if_pos more]
      rw [if_pos (show w.restarts < Config.maxRestarts from more)]
      exact .modPort (by rw [stands]; rfl)
    · have abandons : abandonSweep p .trimChanged m = endSweep p w (.abandoned .trimChanged) m := by
        simp only [abandonSweep, same.trans sweep]
      simp only [if_neg more]
      rw [if_neg (show ¬ w.restarts < Config.maxRestarts from more), abandons]
      exact endSweep_acts stands w _

theorem PortCounters.afterWindow_eq (c : PortCounters) (k : CalKind) (final : o ≠ .spoiled) :
    c.afterWindow k o = c.counted k o := by
  cases k with
  | full => rfl
  | quick =>
    cases o with
    | spoiled => exact absurd rfl final
    | done => rfl
    | rail => rfl
    | failed => rfl

theorem exec_windowEnd {n : Byte} {og : CalOrigin} {rest : List TrimMsg} (running : s.power = .running)
    (oldest : (s.port p).fromTrim = .windowEnd n o k og changed :: rest) (window : (s.port p).claim = .window)
    (current : (s.port p).claimNumber = n) : exec (.windowEnd p) s =
      .next ((if o = .spoiled then s.modPort p (fun q => { q with fromTrim := rest })
        else finalOutcome p o k changed (s.modPort p fun q => { q with fromTrim := rest })).modPort p fun q =>
          { q with toTrim := q.toTrim ++ [.acknowledge n] }) := by
  have run : exec (.windowEnd p) s =
      .next (takeWindowEnd p n o k changed (s.modPort p fun q => { q with fromTrim := rest })) :=
    congrArg Host.Outcome.next (takeFromTrim_acts running oldest rfl (by rw [window]; nofun) current.symm)
  have window' : ((s.modPort p fun q => { q with fromTrim := rest }).port p).claim = .window := by
    rw [State.modPort_port_same]
    exact window
  rw [run, takeWindowEnd, if_pos window']

theorem Port.restartTimer_of_service (service : q.state.inService = true) :
    q.restartTimer = { q with timer := .running q.interval } := if_pos service

theorem Port.restartTimer_of_out (out : q.state.inService = false) : q.restartTimer = q := if_neg (by simp [out])

/-- The counters and the timer, after the move (R36, R134). -/
theorem countAndRestart_acts (stands : m.port p = q.refresh) (k : CalKind) (service : q.state.inService = true)
    (final : o ≠ .spoiled) :
    Acts p m (m.modPort p fun q => Port.restartTimer { q with counters := q.counters.afterWindow k o })
      { q with counters := q.counters.counted k o, timer := .running q.interval } [] [] := by
  refine .modPort ?_
  rw [stands]
  have restarts := Port.restartTimer_of_service (q := { q.refresh with counters := q.counters.afterWindow k o }) service
  rw [PortCounters.afterWindow_eq _ k final] at restarts
  rw [Port.refresh_counters, PortCounters.afterWindow_eq _ k final, restarts]
  rfl

theorem WindowOutcome.tells_eq (o : WindowOutcome) (changed : Bool) :
    o.tells changed = (decide (o = .done ∨ o = .rail) && changed) := by
  rw [WindowOutcome.tells, Bool.decide_or]

/-- The PORT_STATE of a move that has a cause. -/
def moveNotices (p : PortId) (st : PortState) : Option TransCause → List Notice
  | some tc => [.portState p st tc]
  | none => []

theorem finalNotices_length (p : PortId) (st : PortState) (cause : Option TransCause) (tells : Bool)
    (sweep : Option Sweep) :
    (moveNotices p st cause ++ (if tells then changeNotices p sweep else [])).length ≤ 2 := by
  have first : (moveNotices p st cause).length ≤ 1 := by cases cause <;> simp [moveNotices]
  have second : (if tells then changeNotices p sweep else []).length ≤ 1 := by
    unfold changeNotices
    rcases tells
    · simp
    · rcases sweep with _ | w
      · simp
      · by_cases more : w.restarts < 2 <;> simp [more]
  rw [List.length_append]
  omega

/-- The move that an outcome makes, if it makes one. -/
theorem windowMove_acts {st st' : PortState} {cause : Option TransCause} (stands : m.port p = q.refresh)
    (move : (st, o, st', cause) ∈ windowMoves) (isState : q.state = st) :
    ∃ timer, Acts p m (windowMove p o m) { q with state := st', timer := timer }
      (moveNotices p st' cause) [] := by
  obtain ⟨isMove, stays, service, -⟩ := windowMoves_outcomeMove move
  have sameState : (m.port p).state = st := by rw [stands]; exact isState
  unfold windowMove
  rw [sameState, isMove]
  rcases cause with _ | tc
  · refine ⟨q.timer, (Acts.refl stands).to (congrArg Port.refresh ?_)⟩
    exact congrArg (fun state => { q with state := state }) (isState.trans (stays rfl).symm)
  · refine ⟨q.timer.inState st', ?_⟩
    rcases st' with _ | kind | _ | _ | _ | fault
    case faulted => cases service
    all_goals exact moveTo_acts stands _ tc

/-- A final outcome that R26's table moves. -/
theorem finalOutcome_acts {st st' : PortState} {cause : Option TransCause} (stands : m.port p = q.refresh)
    (move : (st, o, st', cause) ∈ windowMoves) (isState : q.state = st) (k : CalKind) (changed : Bool) :
    let tells := decide (o = .done ∨ o = .rail) && changed
    Acts p m (finalOutcome p o k changed m)
      { q with
        state := st', counters := q.counters.counted k o, timer := .running q.interval
        sweep := if tells then sweepAfterChange q.sweep else q.sweep }
      (moveNotices p st' cause ++ (if tells then changeNotices p q.sweep else [])) [] := by
  intro tells
  obtain ⟨-, -, service, final⟩ := windowMoves_outcomeMove move
  obtain ⟨timer, moved⟩ := windowMove_acts stands move isState
  have counted := moved.andThen (countAndRestart_acts moved.port k service final)
  unfold finalOutcome
  rw [WindowOutcome.tells_eq]
  by_cases told : tells = true
  · rw [if_pos told, if_pos told, if_pos told]
    exact counted.trans (tellSweep_acts counted.port)
  · rw [if_neg told, if_neg told, if_neg told, List.append_nil]
    exact counted

theorem acknowledge_acts (stands : m.port p = q.refresh) (n : Byte) :
    Acts p m (m.modPort p fun q => { q with toTrim := q.toTrim ++ [.acknowledge n] })
      { q with toTrim := q.toTrim ++ [.acknowledge n] } [] [] := .modPort (by rw [stands]; rfl)

/-- FAILED in TRIMMING (FULL): the claim is NONE before the fault, whose withdrawal so sends nothing (R26, R126). -/
theorem finalOutcome_faults (stands : m.port p = q.refresh) (isState : q.state = .trimming .full) (k : CalKind)
    (changed : Bool) :
    Acts p m (finalOutcome p .failed k changed m)
      { Port.faultedWith { q with claim := .none } .trim with
        counters := q.counters.counted k .failed, claimKind := none }
      (.portState p (.faulted .trim) .calFailed :: q.flushNotices p .portFaulted .portFaulted) q.tags := by
  have sameState : (m.port p).state = .trimming .full := by rw [stands]; exact isState
  have released : Acts p m (m.modPort p fun q => { q with claim := .none, claimKind := none })
      { q with claim := .none, claimKind := none } [] [] := .modPort (by rw [stands]; rfl)
  have faults := released.after (enterFault_acts (.inr released.port) .trim .calFailed)
  have moves : windowMove p .failed m =
      enterFault p .trim .calFailed (m.modPort p fun q => { q with claim := .none, claimKind := none }) := by
    simp only [windowMove, sameState]
    rfl
  unfold finalOutcome
  rw [moves, WindowOutcome.tells_eq, if_neg (by simp)]
  refine faults.andThen (.modPort ?_)
  rw [faults.port]
  have stays := Port.restartTimer_of_out
    (q := { (Port.faultedWith { q with claim := .none, claimKind := none } .trim).refresh with
      counters := q.counters.afterWindow k .failed }) rfl
  rw [PortCounters.afterWindow_eq (o := .failed) q.counters k (by decide)] at stays
  have counts : (Port.faultedWith { q with claim := .none, claimKind := none } .trim).refresh.counters.afterWindow k
      .failed = q.counters.counted k .failed := PortCounters.afterWindow_eq (o := .failed) q.counters k (by decide)
  rw [counts]
  refine (congrArg Port.refresh stays).trans ?_
  rfl

/-- Settles O53, step by step. -/
theorem windowEndMovesThePort : Obligations.WindowEndMovesThePort := by
  intro s p n o k og changed rest running oldest window current q tells
  have run := exec_windowEnd running oldest window current
  have dropped : Acts p s (s.modPort p fun q => { q with fromTrim := rest }) { s.port p with fromTrim := rest } [] [] :=
    .modPort rfl
  refine ⟨fun spoiled => ?_, fun st st' cause move isState room => ?_, fun isState failed room => ?_⟩
  · have acts := dropped.after (acknowledge_acts dropped.port n)
    rw [if_pos spoiled] at run
    exact ⟨_, run, acts.quiet, acts.port⟩
  · have final := finalOutcome_acts dropped.port move isState k changed
    have acts := (dropped.after final).andThen (acknowledge_acts final.port n)
    rw [if_neg (windowMoves_outcomeMove move).2.2.2] at run
    have reported := acts.reported (roomFor_mono (finalNotices_length ..) room)
    refine ⟨_, run, acts.work.unanswered, ?_, acts.onlyPort, acts.port⟩
    rcases cause with _ | tc
    · exact reported
    · exact reported
  · subst failed
    have faults := finalOutcome_faults dropped.port isState k changed
    have acts := (dropped.after faults).andThen (acknowledge_acts faults.port n)
    rw [if_neg (by decide)] at run
    refine ⟨_, run, Acts.faultsInto (acts.to (congrArg Port.refresh ?_)) room⟩
    simp only [Port.faultedWith, Port.withdrawals, if_true, List.append_nil]
    rfl

end

end Sys2Proof.Machine
